-- ==== Sys2Proof/Word.lean ====
section
/-!
DEFINITION. The two widths of the block: one sample (8 bits, `00_scope.md` R4 SAMPLE_BITS) and one register or
command word (32 bits, R4 REG_BITS, CMD_BITS).
-/

namespace Sys2Proof

/-- One sample: an unsigned 8-bit value in 0 .. 255 (R4, R9). -/
abbrev Byte := BitVec 8

/-- One register of the register space, or one command word (R33, R80). -/
abbrev Word := BitVec 32

end Sys2Proof
end

