-- ==== Sys2Proof/Syntax.lean ====
section
/-!
DEFINITION. The commands (one constructor per row of `opcode_table.json`), the names they use, and what the host can
do: the four host accesses, the turns the agents take, and the lines of a host script (`30_encoding.md` R84, R88, R89).
-/

namespace Sys2Proof

/-- A slot: one of the two plane buffers (R9, R21). Slot 0 is buffer A, slot 1 is buffer B. -/
inductive Slot
  | a
  | b
deriving DecidableEq, Repr

/-- The three filters `fn` of R81: 0 = SHARPEN, 1 = SOBEL, 2 = MEDIAN. -/
inductive Filt
  | sharpen
  | sobel
  | median
deriving DecidableEq, Repr

/-- The ten commands of R84. A command carries no operand: every operand is an implicit register (R82). -/
inductive Instr
  | nop
  | sample
  | filtSharpen
  | filtSobel
  | filtMedian
  | sweepSharpen
  | sweepSobel
  | sweepMedian
  | swap
  | run
deriving DecidableEq, Repr

/-- The sixteen named registers of the register space (R33). -/
inductive RegName
  | id | cmd | status | ctrl | width | stride | height | x | y
  | win0 | win1 | win2 | pix | cause | finfo | cap
deriving DecidableEq, Repr

/-- One host access, an atomic step (R34, R54, R57). A register is named by its index, of which 16 and above are
reserved (R33); a plane access by an absolute slot and an offset, and it carries one byte. -/
inductive HostAct
  | regRead (index : Nat)
  | regWrite (index : Nat) (value : Word)
  | planeRead (slot : Slot) (off : Nat)
  | planeWrite (slot : Slot) (off : Nat) (value : Byte)
deriving DecidableEq, Repr

/-- One turn of the whole system: a host access, the offer of a turn to the engine, the host's wait for completion
(the pseudo-instruction `wait` of R89), or a hard reset from outside (R200). -/
inductive Turn
  | host (act : HostAct)
  | engine
  | wait
  | hardReset
deriving DecidableEq, Repr

/-- What a host read returns: a whole register or one sample (R34, R57). -/
inductive Reply
  | reg (value : Word)
  | sample (value : Byte)
deriving DecidableEq, Repr

/-- One line of a host script: the five lines of R88 and the pseudo-instructions of R89. -/
inductive ScriptLine
  | wr (reg : RegName) (value : Word)
  | rd (reg : RegName)
  | pw (slot : Slot) (off : Nat) (value : Byte)
  | pr (slot : Slot) (off : Nat)
  | cmd (i : Instr)
  | setgeo (w s h : Word)
  | setxy (x y : Word)
  | setwin (v0 v1 v2 v3 v4 v5 v6 v7 v8 : Byte)
  | load (slot : Slot) (bytes : List Byte)
  | dump (slot : Slot) (n : Nat)
  | wait
  | reset
  | sharpen
  | sobel
  | median
  | run
deriving DecidableEq, Repr

end Sys2Proof
end

