-- ==== Sys2Proof/WellFormed.lean ====
section
/-!
DEFINITION. Well-formed commands. A command has no operand (R82), so every term of `Instr` is well-formed; what can be
ill-formed is the contents of the three fields of format C (`30_encoding.md` R80, R81), checked here one by one.
-/

namespace Sys2Proof

/-- The fields of format C (R80, R81): ZERO = c[31:10], FN = c[9:8], OPC = c[7:0]. -/
structure Fields where
  zero : BitVec 22
  fn : BitVec 2
  opc : BitVec 8
deriving DecidableEq, Repr

/-- R81: ZERO must be 0 in every command. -/
def Fields.zeroOk (f : Fields) : Bool := f.zero == 0#22

/-- R81: OPC values 0x00 to 0x05 are defined. -/
def Fields.opcOk (f : Fields) : Bool := f.opc.toNat ≤ 5

/-- R81: FN is the filter selector of FILT (0x02) and SWEEP (0x03), where 3 is reserved; for every other opcode it
must be 0. -/
def Fields.fnOk (f : Fields) : Bool :=
  if f.opc == 2#8 || f.opc == 3#8 then f.fn != 3#2 else f.fn == 0#2

/-- The contents of a legal command word (R81, R85). -/
def Fields.wf (f : Fields) : Bool := f.zeroOk && f.opcOk && f.fnOk

/-- A command carries no operand that could be out of range (R82): each of the ten is well-formed. -/
def Instr.wf : Instr → Bool
  | .nop => true
  | .sample => true
  | .filtSharpen => true
  | .filtSobel => true
  | .filtMedian => true
  | .sweepSharpen => true
  | .sweepSobel => true
  | .sweepMedian => true
  | .swap => true
  | .run => true

end Sys2Proof
end

