-- ==== Sys2Proof/Decode.lean ====
section
/-!
DEFINITION. The decoder, total on every 32-bit word (`30_encoding.md` R91, R85), the encoder written from the table of
R84, and the numbering of the registers (`10_state.md` R33).
-/

namespace Sys2Proof

/-- Why a word is not a command (the four cases of R85). -/
inductive IllegalWord
  | zeroFieldNonzero
  | opcUndefined
  | fnReserved
  | fnUnused
deriving DecidableEq, Repr

/-- What the decoder answers: a command, or `Illegal` with the case of R85 that holds. -/
inductive Decoded
  | instr (i : Instr)
  | illegal (why : IllegalWord)
deriving DecidableEq, Repr

/-- The three fields of a command word (R81). -/
def fieldsOf (c : Word) : Fields where
  zero := c.extractLsb' 10 22
  fn := c.extractLsb' 8 2
  opc := c.extractLsb' 0 8

/-- The table of R91 on (OPC, FN), once ZERO is known to be 0. -/
def decodeOpcFn (opc : BitVec 8) (fn : BitVec 2) : Decoded :=
  match opc, fn with
  | 0x00#8, 0#2 => .instr .nop
  | 0x01#8, 0#2 => .instr .sample
  | 0x02#8, 0#2 => .instr .filtSharpen
  | 0x02#8, 1#2 => .instr .filtSobel
  | 0x02#8, 2#2 => .instr .filtMedian
  | 0x03#8, 0#2 => .instr .sweepSharpen
  | 0x03#8, 1#2 => .instr .sweepSobel
  | 0x03#8, 2#2 => .instr .sweepMedian
  | 0x04#8, 0#2 => .instr .swap
  | 0x05#8, 0#2 => .instr .run
  | 0x02#8, _ => .illegal .fnReserved
  | 0x03#8, _ => .illegal .fnReserved
  | 0x00#8, _ => .illegal .fnUnused
  | 0x01#8, _ => .illegal .fnUnused
  | 0x04#8, _ => .illegal .fnUnused
  | 0x05#8, _ => .illegal .fnUnused
  | _, _ => .illegal .opcUndefined

/-- The decoder of R91, total on every 32-bit word. -/
def decode (c : Word) : Decoded :=
  if (fieldsOf c).zero = 0#22 then decodeOpcFn (fieldsOf c).opc (fieldsOf c).fn
  else .illegal .zeroFieldNonzero

/-- The instruction of a table row whose bits are `w`: one 32-bit word, whose bits above `nbits` are 0. A command is
never longer than 32 bits (R87). -/
def decodeTableWord (nbits w : Nat) : Option Instr :=
  if 32 < nbits then none
  else
    match decode (BitVec.ofNat 32 (w % 2 ^ nbits)) with
    | .instr i => some i
    | .illegal _ => none

/-- The fields of each command: the OPC and FN columns of R84. -/
def encodeFields : Instr → Fields
  | .nop => ⟨0, 0, 0x00⟩
  | .sample => ⟨0, 0, 0x01⟩
  | .filtSharpen => ⟨0, 0, 0x02⟩
  | .filtSobel => ⟨0, 1, 0x02⟩
  | .filtMedian => ⟨0, 2, 0x02⟩
  | .sweepSharpen => ⟨0, 0, 0x03⟩
  | .sweepSobel => ⟨0, 1, 0x03⟩
  | .sweepMedian => ⟨0, 2, 0x03⟩
  | .swap => ⟨0, 0, 0x04⟩
  | .run => ⟨0, 0, 0x05⟩

/-- Format C (R80): ZERO in bits 31:10, FN in bits 9:8, OPC in bits 7:0. -/
def packFields (f : Fields) : Word := (f.zero ++ f.fn ++ f.opc).setWidth 32

/-- The command word of an instruction (R84). -/
def encode (i : Instr) : Word := packFields (encodeFields i)

/-- The register with a given index (R33). Indices 16 and above are reserved. -/
def regOfIndex : Nat → Option RegName
  | 0 => some .id
  | 1 => some .cmd
  | 2 => some .status
  | 3 => some .ctrl
  | 4 => some .width
  | 5 => some .stride
  | 6 => some .height
  | 7 => some .x
  | 8 => some .y
  | 9 => some .win0
  | 10 => some .win1
  | 11 => some .win2
  | 12 => some .pix
  | 13 => some .cause
  | 14 => some .finfo
  | 15 => some .cap
  | _ => none

/-- The index of a register (R33). -/
def regIndex : RegName → Nat
  | .id => 0
  | .cmd => 1
  | .status => 2
  | .ctrl => 3
  | .width => 4
  | .stride => 5
  | .height => 6
  | .x => 7
  | .y => 8
  | .win0 => 9
  | .win1 => 10
  | .win2 => 11
  | .pix => 12
  | .cause => 13
  | .finfo => 14
  | .cap => 15

end Sys2Proof
end

