-- ==== Sys2Proof/Config.lean ====
section
/-!
DEFINITION. What an implementation fixes and what the spec leaves free. A constant without a body is a free value: no
proof can see what it is, so a statement that holds, holds whatever it is (notes/assumptions 1, 2, 9).
-/

namespace Sys2Proof.Config

/-- ID_VALUE (R4, R32): "NS", major version 1, minor version 0. -/
def idValue : Word := 0x4E530100#32

/-- Free bytes for the unspecified values of registers and of host reads, one for each draw (log 1). -/
opaque freeByte : Nat → Byte

/-- Free 32-bit words for the unspecified register reads of R34, one for each draw (log 1, 6). -/
opaque freeWord : Nat → Word

/-- The sample that a buffer holds at an offset nobody has written since draw `n` of its contents (U3, log 4). -/
opaque freeSample : (n : Nat) → (off : Nat) → Byte

/-- BUF_CAP less one: R4 leaves BUF_CAP open in 1 .. 2^32 − 1 (log 2). -/
opaque bufCapLessOne : Fin 4294967295

/-- BUF_CAP, the capacity of each plane buffer in samples (R4, D2, log 2). -/
def bufCap : Word := BitVec.ofNat 32 (bufCapLessOne.val + 1)

/-- REG_BASE: where a platform maps the register space (R4, D20, log 9). No rule depends on it. -/
opaque regBase : Nat

/-- PLANE_A_BASE (R4, D20, log 9). No rule depends on it. -/
opaque planeABase : Nat

/-- PLANE_B_BASE (R4, D20, log 9). No rule depends on it. -/
opaque planeBBase : Nat

end Sys2Proof.Config
end

