-- ==== Sys2Proof/Machine/State.lean ====
section
/-!
DEFINITION. The state of the block, whole (`10_state.md` R20 to R39), the reasons a step can stop, and the state right
after reset. State is plain data.
-/

namespace Sys2Proof.Machine

/-- The nine window registers (R24), named by their aliases: `W[3·r + c]` is the sample of kernel row r and column c. -/
structure Window where
  /-- `W[0]`, top-left. -/
  tl : Byte
  /-- `W[1]`, top-centre. -/
  tc : Byte
  /-- `W[2]`, top-right. -/
  tr : Byte
  /-- `W[3]`, middle-left. -/
  ml : Byte
  /-- `W[4]`, centre. -/
  mc : Byte
  /-- `W[5]`, middle-right. -/
  mr : Byte
  /-- `W[6]`, bottom-left. -/
  bl : Byte
  /-- `W[7]`, bottom-centre. -/
  bc : Byte
  /-- `W[8]`, bottom-right. -/
  br : Byte
deriving DecidableEq, Repr

/-- One plane buffer (R21): the samples written since its contents were last drawn, by offset, and the number of that
draw. An offset that is not listed holds the free value `Config.freeSample draw off` (R39, U3, log 4). -/
structure Memory where
  draw : Nat
  cells : List Host.Cell
deriving DecidableEq, Repr

/-- SEQ.MODE (R27). The filter of the sweep in progress is part of the mode, because OPS is a function of the command
(R27, R136, log 7). -/
inductive Mode
  | idle
  | sweep (fn : Filt)
  | run
deriving DecidableEq, Repr

/-- The four faults of the block, with the extra word of IllegalCommand and the mask of InvalidGeometry (R170). They
are taken as next states (R176), never as stops of the model. -/
inductive Trap
  | illegalCommand (c : Word)
  | invalidGeometry (mask : Word)
  | capacityExceeded
  | nonInterior
deriving DecidableEq, Repr

/-- The whole state: the block's (R20), the parameter BUF_CAP that no step writes (log 2), and the model's own counter
of free draws, pending turns and answers to the host (log 1, 3). -/
structure State where
  /-- `BUF[0]`, the document's buffer A (R21). -/
  bufA : Memory
  /-- `BUF[1]`, the document's buffer B (R21). -/
  bufB : Memory
  /-- WIDTH (R22). -/
  width : Word
  /-- STRIDE (R22). -/
  stride : Word
  /-- HEIGHT (R22). -/
  height : Word
  /-- X, the column of SAMPLE (R23). -/
  x : Word
  /-- Y, the row of SAMPLE (R23). -/
  y : Word
  /-- `W[0]` to `W[8]` (R24). -/
  w : Window
  /-- PIX, the filter result (R25). -/
  pix : Byte
  /-- SEL, the slot that is the current input (R26). -/
  sel : Slot
  /-- SEQ.MODE (R27). -/
  mode : Mode
  /-- SEQ.STAGE (R27). -/
  stage : BitVec 2
  /-- SEQ.K, the index of the next micro-op (R27). -/
  k : Nat
  /-- BUSY (R28). -/
  busy : Bool
  /-- DONE (R28). -/
  done : Bool
  /-- FAULT (R28). -/
  fault : Bool
  /-- WERR (R28, R179). -/
  werr : Bool
  /-- CAUSE (R31). -/
  cause : BitVec 4
  /-- FINFO (R31). -/
  finfo : Word
  /-- BUF_CAP, a parameter (R4, R32). -/
  bufCap : Word
  /-- The model's own: the index of the next unused free draw (log 1). -/
  draws : Nat
  /-- The model's own: the turns still to be taken, first one next (log 3). -/
  agenda : List Turn
  /-- The model's own: what the host's reads returned, newest first (log 3). -/
  replies : List Reply
deriving DecidableEq, Repr

/-- Why the machine stops. Both stops concern only states that no run reaches (`State.Inv` excludes them). -/
inductive Fault
  /-- Raised by an engine step with BUSY = 1 when OPS has no K-th micro-op (R27, R136). Safe: the model stops where the
  spec describes nothing. -/
  | noMicroOp
  /-- Raised by SAMPLE or by an engine step that forms an offset at or beyond BUF_CAP, a sample that does not exist
  (R21), or that asks for the window of a coordinate that is not interior, which has none (R102). Safe: the checks made at acceptance exclude it (R36, R56, R186). -/
  | noSuchSample
deriving DecidableEq, Repr

/-- Why an instruction has no meaning in this model. -/
inductive Refusal
  /-- Raised by `exec` for an instruction whose meaning is not written yet. Safe. No instruction is left so. -/
  | notModelled (mnemonic : String)
deriving DecidableEq, Repr

/-- The state right after a hard reset (R39, R200): control state all 0, data state unspecified (free draws 0 to 11,
log 4, 5), nothing pending. -/
def State.reset : State where
  bufA := ⟨0, []⟩
  bufB := ⟨1, []⟩
  width := 0
  stride := 0
  height := 0
  x := 0
  y := 0
  w := ⟨Config.freeByte 2, Config.freeByte 3, Config.freeByte 4, Config.freeByte 5, Config.freeByte 6,
        Config.freeByte 7, Config.freeByte 8, Config.freeByte 9, Config.freeByte 10⟩
  pix := Config.freeByte 11
  sel := .a
  mode := .idle
  stage := 0
  k := 0
  busy := false
  done := false
  fault := false
  werr := false
  cause := 0
  finfo := 0
  bufCap := Config.bufCap
  draws := 12
  agenda := []
  replies := []

end Sys2Proof.Machine
end

