-- ==== Sys2Proof/Machine/Operands.lean ====
section
/-!
DEFINITION. The implicit operands of a command (`30_encoding.md` R82): slots, the geometry registers and every quantity
and predicate derived from them (`10_state.md` R36), the window lanes (`20_memory.md` R52), and the checks a command
makes at acceptance (`60_exceptions.md` R170, R172 to R175, R186). Arithmetic is on natural numbers and never wraps.
-/

namespace Sys2Proof.Machine

/-- The other slot: `1 − s` (R26). -/
def otherSlot : Slot → Slot
  | .a => .b
  | .b => .a

/-- The slot as the bit SEL (R26): A is 0, B is 1. -/
def slotBit : Slot → BitVec 1
  | .a => 0
  | .b => 1

/-- The geometry as numbers (R22, R36). -/
structure Geometry where
  width : Nat
  stride : Nat
  height : Nat
deriving DecidableEq, Repr

/-- The geometry registers read as unsigned numbers (R22). -/
def State.geo (s : State) : Geometry := ⟨s.width.toNat, s.stride.toNat, s.height.toNat⟩

/-- `plane_len = STRIDE * HEIGHT` (R36). -/
def Geometry.planeLen (g : Geometry) : Nat := g.stride * g.height

/-- `off(x, y) = y * STRIDE + x` (R36, R51). -/
def Geometry.off (g : Geometry) (x y : Nat) : Nat := y * g.stride + x

/-- `in_plane(x, y)` (R36). -/
abbrev Geometry.inPlane (g : Geometry) (x y : Nat) : Prop := x < g.width ∧ y < g.height

/-- `interior(x, y)` (R36). -/
abbrev Geometry.interior (g : Geometry) (x y : Nat) : Prop :=
  1 ≤ x ∧ x + 2 ≤ g.width ∧ 1 ≤ y ∧ y + 2 ≤ g.height

/-- `border(x, y)` (R36). -/
abbrev Geometry.border (g : Geometry) (x y : Nat) : Prop :=
  g.inPlane x y ∧ (y = 0 ∨ y + 1 = g.height ∨ x = 0 ∨ x + 1 = g.width)

/-- `padding(x, y)` (R36). -/
abbrev Geometry.padding (g : Geometry) (x y : Nat) : Prop := g.width ≤ x ∧ x < g.stride ∧ y < g.height

/-- `valid_geometry` (R36). -/
abbrev Geometry.valid (g : Geometry) : Prop :=
  1 ≤ g.width ∧ 1 ≤ g.stride ∧ 1 ≤ g.height ∧ g.width ≤ g.stride

/-- `fits` (R36): the plane fits in a buffer of `cap` samples. -/
abbrev Geometry.fits (g : Geometry) (cap : Nat) : Prop := g.planeLen ≤ cap

/-- The FINFO mask of R172, all four tests evaluated: WIDTH == 0, STRIDE == 0, HEIGHT == 0, WIDTH > STRIDE. -/
def Geometry.faultMask (g : Geometry) : Word :=
  (BitVec.ofBool (decide (g.stride < g.width)) ++ BitVec.ofBool (decide (g.height = 0)) ++
    BitVec.ofBool (decide (g.stride = 0)) ++ BitVec.ofBool (decide (g.width = 0))).setWidth 32

/-- The checks of SWEEP and RUN in the order of R186: InvalidGeometry, then CapacityExceeded. -/
def State.geometryTrap (s : State) : Option Trap :=
  if ¬ s.geo.valid then some (.invalidGeometry s.geo.faultMask)
  else if ¬ s.geo.fits s.bufCap.toNat then some .capacityExceeded
  else none

/-- The checks of SAMPLE in the order of R186: the geometry, the capacity, then the interior test on (X, Y). -/
def State.sampleTrap (s : State) : Option Trap :=
  match s.geometryTrap with
  | some t => some t
  | none => if ¬ s.geo.interior s.x.toNat s.y.toNat then some .nonInterior else none

/-- The window registers in the order `W[0]` to `W[8]` (R24). -/
def Window.toList (n : Window) : List Byte := [n.tl, n.tc, n.tr, n.ml, n.mc, n.mr, n.bl, n.bc, n.br]

/-- WIN0: `W[0]` in bits 7:0 up to `W[3]` in bits 31:24 (R33, R52). -/
def Window.win0 (n : Window) : Word := (n.ml ++ n.tr ++ n.tc ++ n.tl).setWidth 32

/-- WIN1: `W[4]` in bits 7:0 up to `W[7]` in bits 31:24 (R33, R52). -/
def Window.win1 (n : Window) : Word := (n.bc ++ n.bl ++ n.mr ++ n.mc).setWidth 32

/-- WIN2: `W[8]` in bits 7:0, the rest reads as 0 (R33, R52). -/
def Window.win2 (n : Window) : Word := n.br.setWidth 32

/-- A write to WIN0 stores its four bytes in `W[0]` to `W[3]` (R34). -/
def Window.setWin0 (n : Window) (v : Word) : Window :=
  { n with tl := v.extractLsb' 0 8, tc := v.extractLsb' 8 8, tr := v.extractLsb' 16 8, ml := v.extractLsb' 24 8 }

/-- A write to WIN1 stores its four bytes in `W[4]` to `W[7]` (R34). -/
def Window.setWin1 (n : Window) (v : Word) : Window :=
  { n with mc := v.extractLsb' 0 8, mr := v.extractLsb' 8 8, bl := v.extractLsb' 16 8, bc := v.extractLsb' 24 8 }

/-- A write to WIN2 stores bits 7:0 in `W[8]` (R34). -/
def Window.setWin2 (n : Window) (v : Word) : Window := { n with br := v.extractLsb' 0 8 }

/-- The suggested bus address of a register: REG_BASE + 4·index (R33, R55). No rule depends on it (log 9). -/
def busAddress (r : Nat) : Nat := Config.regBase + 4 * r

/-- The bus address of the first sample of a slot (R4, R55). No rule depends on it (log 9). -/
def planeBase : Slot → Nat
  | .a => Config.planeABase
  | .b => Config.planeBBase

end Sys2Proof.Machine
end

