-- ==== Sys2Proof/Machine/Flags.lean ====
section
/-!
DEFINITION. The status flags (`10_state.md` R28, R33) and what the acceptance and the completion of a command do to
them (`30_encoding.md` R90). There are no arithmetic flags.
-/

namespace Sys2Proof.Machine

/-- The register STATUS: BUSY 0, DONE 1, FAULT 2, WERR 3, SEL 4, STAGE 6:5, zero above (R28, R33). -/
def State.status (s : State) : Word :=
  (s.stage ++ slotBit s.sel ++ BitVec.ofBool s.werr ++ BitVec.ofBool s.fault ++ BitVec.ofBool s.done ++
    BitVec.ofBool s.busy).setWidth 32

/-- Acceptance clears DONE (R90). -/
def State.accept (s : State) : State := { s with done := false }

/-- A command that completes within its acceptance step sets DONE (R90). -/
def State.finish (s : State) : State := { s with done := true }

/-- A dropped or out-of-range host access sets WERR (R179). -/
def State.setWerr (s : State) : State := { s with werr := true }

/-- Writable registers and plane space are closed to the host while BUSY = 1 or FAULT = 1 (R34, R57). -/
def State.locked (s : State) : Bool := s.busy || s.fault

end Sys2Proof.Machine
end

