-- ==== Sys2Proof/Machine/Ops.lean ====
section
/-!
DEFINITION. The named operations: plane memory (`20_memory.md` R54, R56), unspecified values, taking a fault
(`60_exceptions.md` R176), the two resets (`70_reset_and_hazards.md` R200, R201), which are the only way out of a fault
(R183), and the answer to a host read.
-/

namespace Sys2Proof.Machine

/-- The listed value at an offset, if there is one. -/
def lookupCell : List Host.Cell → Nat → Option Byte
  | [], _ => none
  | (a, v) :: rest, off => if a = off then some v else lookupCell rest off

/-- The cells with `v` at `off`, in rising order of offset. -/
def insertCell : List Host.Cell → Nat → Byte → List Host.Cell
  | [], off, v => [(off, v)]
  | (a, u) :: rest, off, v =>
    if off < a then (off, v) :: (a, u) :: rest
    else if off = a then (off, v) :: rest
    else (a, u) :: insertCell rest off v

/-- `BUF[s][off]`: the listed sample, or, where nobody has written since the contents were drawn, the free value that
the location holds (R7, R39, U3, log 4). -/
def Memory.read (m : Memory) (off : Nat) : Byte :=
  match lookupCell m.cells off with
  | some v => v
  | none => Config.freeSample m.draw off

/-- `BUF[s][off] <- v`. -/
def Memory.write (m : Memory) (off : Nat) (v : Byte) : Memory :=
  { m with cells := insertCell m.cells off v }

/-- The canonical form: offsets strictly rising. An unlisted offset holds no known value, so no entry can equal what
an unlisted offset reads as (log 4). -/
abbrev Memory.wf (m : Memory) : Prop := m.cells.Pairwise (fun c d => c.1 < d.1)

/-- Every listed offset exists: it is below the capacity (R21). -/
abbrev Memory.within (m : Memory) (cap : Nat) : Prop := ∀ c ∈ m.cells, c.1 < cap

/-- The buffer of a slot (R21). -/
def State.buf (s : State) : Slot → Memory
  | .a => s.bufA
  | .b => s.bufB

/-- The state with another buffer in a slot. -/
def State.setBuf (s : State) : Slot → Memory → State
  | .a, m => { s with bufA := m }
  | .b, m => { s with bufB := m }

/-- One sample of one slot: `BUF[s][off]`. -/
def State.byte (s : State) (slot : Slot) (off : Nat) : Byte := (s.buf slot).read off

/-- MemRead((slot, off), 1) (R56); `none` where the slot has no such offset (R21). -/
def State.memRead (s : State) (slot : Slot) (off : Nat) : Option Byte :=
  if off < s.bufCap.toNat then some (s.byte slot off) else none

/-- MemWrite((slot, off), 1, v) (R56); `none` where the slot has no such offset (R21). -/
def State.memWrite (s : State) (slot : Slot) (off : Nat) (v : Byte) : Option State :=
  if off < s.bufCap.toNat then some (s.setBuf slot ((s.buf slot).write off v)) else none

/-- Nine free bytes, from draw `n` on. -/
def freeWindow (n : Nat) : Window :=
  ⟨Config.freeByte n, Config.freeByte (n + 1), Config.freeByte (n + 2), Config.freeByte (n + 3),
   Config.freeByte (n + 4), Config.freeByte (n + 5), Config.freeByte (n + 6), Config.freeByte (n + 7),
   Config.freeByte (n + 8)⟩

/-- `W[0..8] <- unspecified ; PIX <- unspecified` (R136, R142, R201): ten fresh draws (log 1). -/
def State.drawRegs (s : State) : State :=
  { s with w := freeWindow s.draws, pix := Config.freeByte (s.draws + 9), draws := s.draws + 10 }

/-- `every BUF[0][off], BUF[1][off] <- unspecified` (R201, R39): both buffers drawn afresh (log 1, 4). -/
def State.drawBufs (s : State) : State :=
  { s with bufA := ⟨s.draws, []⟩, bufB := ⟨s.draws + 1, []⟩, draws := s.draws + 2 }

/-- The CAUSE code of a fault (R170). -/
def Trap.code : Trap → BitVec 4
  | .illegalCommand _ => 1
  | .invalidGeometry _ => 2
  | .capacityExceeded => 3
  | .nonInterior => 4

/-- The FINFO word of a fault (R170). -/
def Trap.info : Trap → Word
  | .illegalCommand c => c
  | .invalidGeometry mask => mask
  | .capacityExceeded => 0
  | .nonInterior => 0

/-- `raise F(info)` (R176): the one operation that takes a fault, inside the acceptance step, which has already
cleared DONE. Nothing else changes; control goes nowhere. -/
def raise (t : Trap) (s : State) : State :=
  { s with fault := true, cause := t.code, finfo := t.info }

/-- The control state at its reset values (R39, R201). -/
def State.clearControl (s : State) : State :=
  { s with
    width := 0, stride := 0, height := 0, x := 0, y := 0, sel := .a, mode := .idle, stage := 0, k := 0
    busy := false, done := false, fault := false, werr := false, cause := 0, finfo := 0 }

/-- Soft reset (R201), always accepted: control state cleared; the data state is kept if the engine was idle and
unspecified if it was busy. -/
def softReset (s : State) : State :=
  if s.busy then s.clearControl.drawBufs.drawRegs else s.clearControl

/-- Hard reset (R200), at any time: control state cleared, data state unspecified. -/
def hardReset (s : State) : State := s.clearControl.drawBufs.drawRegs

/-- `K <- n` (R27, R136). -/
def State.setK (s : State) (n : Nat) : State := { s with k := n }

/-- The host receives the answer to a read (log 3). -/
def State.answer (s : State) (r : Reply) : State := { s with replies := r :: s.replies }

end Sys2Proof.Machine
end

