-- ==== Sys2Proof/Machine/Filters.lean ====
section
/-!
DEFINITION. The 3x3 convolution engine (`41_filters.md`): the three filters in exact integers (R112, R117, R119) and the
three FILT commands (R113, R118, R121).
-/

namespace Sys2Proof.Machine

/-- `clamp(v, lo, hi)` (R7). -/
def clampInt (v lo hi : Int) : Int := if v < lo then lo else if hi < v then hi else v

/-- `t = 6*n[4] - (n[1] + n[3] + n[5] + n[7])` (R112). -/
def sharpenT (n : Window) : Int :=
  6 * (n.mc.toNat : Int) - ((n.tc.toNat : Int) + n.ml.toNat + n.mr.toNat + n.bc.toNat)

/-- `sharpen(n) = clamp(floor((t + 1) / 2), 0, 255)` (R112). Division by 2 of an `Int` is the floor. -/
def sharpen (n : Window) : Byte := BitVec.ofInt 8 (clampInt ((sharpenT n + 1) / 2) 0 255)

/-- `sx` (R115). -/
def sobelX (n : Window) : Int :=
  ((n.tr.toNat : Int) + 2 * n.mr.toNat + n.br.toNat) - ((n.tl.toNat : Int) + 2 * n.ml.toNat + n.bl.toNat)

/-- `sy` (R115). -/
def sobelY (n : Window) : Int :=
  ((n.bl.toNat : Int) + 2 * n.bc.toNat + n.br.toNat) - ((n.tl.toNat : Int) + 2 * n.tc.toNat + n.tr.toNat)

/-- `m = sx*sx + sy*sy` (R115). -/
def sobelM (n : Window) : Nat := (sobelX n * sobelX n + sobelY n * sobelY n).toNat

/-- The root of `m` built from `r` by the `bits` lower bits, highest first, keeping each bit that leaves r·r ≤ m. -/
def isqrtFrom : (bits : Nat) → (m r : Nat) → Nat
  | 0, _, r => r
  | bits + 1, m, r =>
    if (r + 2 ^ bits) * (r + 2 ^ bits) ≤ m then isqrtFrom bits m (r + 2 ^ bits) else isqrtFrom bits m r

/-- `isqrt(m)` (R7): the greatest r with r·r ≤ m, bit by bit. -/
def isqrt (m : Nat) : Nat := isqrtFrom (m.log2 / 2 + 1) m 0

/-- `q` of R117: the square root of `m` rounded to the nearest integer. -/
def roundedSqrt (m : Nat) : Nat :=
  if isqrt m < m - isqrt m * isqrt m then isqrt m + 1 else isqrt m

/-- `sobel(n) = min(q, 255)` (R117). -/
def sobel (n : Window) : Byte := BitVec.ofNat 8 (min (roundedSqrt (sobelM n)) 255)

/-- Non-decreasing order (R7, R120). -/
def sortSamples (l : List Byte) : List Byte := l.insertionSort (fun a b => a.toNat ≤ b.toNat)

/-- `median(n) = sort(n)[4]` (R119). -/
def median (n : Window) : Byte := (sortSamples n.toList).getD 4 0

/-- `filter_fn` for fn = 0, 1, 2 (`42_plane_processor.md`). -/
def filterFn : Filt → Window → Byte
  | .sharpen => sharpen
  | .sobel => sobel
  | .median => median

/-- FILT.fn: `PIX <- filter_fn(W)`, complete within the acceptance step, no check, no fault (R113, R118, R121). -/
def filtCommand (fn : Filt) (s : State) : State := { s.accept with pix := filterFn fn s.w }.finish

/-- FILT.SHARPEN (R113). -/
def execFiltSharpen (s : State) : Host.Outcome State Fault Refusal := .next (filtCommand .sharpen s)

/-- FILT.SOBEL (R118). -/
def execFiltSobel (s : State) : Host.Outcome State Fault Refusal := .next (filtCommand .sobel s)

/-- FILT.MEDIAN (R121). -/
def execFiltMedian (s : State) : Host.Outcome State Fault Refusal := .next (filtCommand .median s)

end Sys2Proof.Machine
end

