-- ==== Sys2Proof/Machine/Sampler.lean ====
section
/-!
DEFINITION. The neighborhood sampler (`40_sampler.md`): the sampling function R100 and the command SAMPLE R101.
-/

namespace Sys2Proof.Machine

/-- `sample(buf, stride, x, y)` (R100): the nine samples around (x, y) in row-major order. It has a value only for x ≥ 1
and y ≥ 1; elsewhere it has none (R102). -/
def sample (buf : Nat → Byte) (stride x y : Nat) : Option Window :=
  if 1 ≤ x ∧ 1 ≤ y then
    some
      { tl := buf ((y - 1) * stride + (x - 1))
        tc := buf ((y - 1) * stride + x)
        tr := buf ((y - 1) * stride + (x + 1))
        ml := buf (y * stride + (x - 1))
        mc := buf (y * stride + x)
        mr := buf (y * stride + (x + 1))
        bl := buf ((y + 1) * stride + (x - 1))
        bc := buf ((y + 1) * stride + x)
        br := buf ((y + 1) * stride + (x + 1)) }
  else none

/-- The window of a coordinate of a plane: there is one only where the coordinate is interior, so that `sample` is never
evaluated at another one (R102). -/
def Geometry.window (g : Geometry) (buf : Nat → Byte) (x y : Nat) : Option Window :=
  if g.interior x y then sample buf g.stride x y else none

/-- The nine offsets that the sampler reads (R58, R100). -/
def windowOffsets (stride x y : Nat) : List Nat :=
  [(y - 1) * stride + (x - 1), (y - 1) * stride + x, (y - 1) * stride + (x + 1),
   y * stride + (x - 1), y * stride + x, y * stride + (x + 1),
   (y + 1) * stride + (x - 1), (y + 1) * stride + x, (y + 1) * stride + (x + 1)]

/-- Nine MemReads of one slot (R56, R101, R137); `none` if (x, y) is not interior (R102) or if one of the offsets does
not exist. -/
def State.readWindow (s : State) (slot : Slot) (x y : Nat) : Option Window :=
  if ∀ o ∈ windowOffsets s.geo.stride x y, o < s.bufCap.toNat then s.geo.window (s.byte slot) x y else none

/-- SAMPLE (R101): the three checks, then `W <- sample(BUF[SEL], STRIDE, X, Y)`, in one atomic step. -/
def execSample (s : State) : Host.Outcome State Fault Refusal :=
  match s.sampleTrap with
  | some t => .next (raise t s.accept)
  | none =>
    match s.readWindow s.sel s.x.toNat s.y.toNat with
    | some n => .next { s.accept with w := n }.finish
    | none => .fault .noSuchSample

end Sys2Proof.Machine
end

