-- ==== Sys2Proof/Machine/Sweep.lean ====
section
/-!
DEFINITION. The image plane processor (`42_plane_processor.md`): the sweep as a function (R130), its micro-ops (R135,
R137, R138) and the three SWEEP commands (R139 to R141).
-/

namespace Sys2Proof.Machine

/-- `sweep(fn, inp, out)` (R130) at offset `o`: `o` is `off(x, y)` of exactly one x below STRIDE, x = o mod STRIDE and
y = o div STRIDE. -/
def sweep (fn : Filt) (g : Geometry) (inp out : Nat → Byte) (o : Nat) : Byte :=
  match g.window inp (o % g.stride) (o / g.stride) with
  | some n => filterFn fn n
  | none => if g.border (o % g.stride) (o / g.stride) then inp o else out o

/-- The micro-operations (R135, R155). -/
inductive MicroOp
  | pixel (fn : Filt) (x y : Nat)
  | copy (x y : Nat)
  | swapOp
deriving DecidableEq, Repr

/-- The interior pass of R135, row-major: y in 1 .. Ht−2, x in 1 .. Wd−2. -/
def interiorOps (fn : Filt) (wd ht : Nat) : List MicroOp :=
  (List.range (ht - 2)).flatMap fun j => (List.range (wd - 2)).map fun i => .pixel fn (i + 1) (j + 1)

/-- The border pass of R135: first and last row for each column, then first and last column for each row. -/
def borderOps (wd ht : Nat) : List MicroOp :=
  ((List.range wd).flatMap fun x => [.copy x 0, .copy x (ht - 1)]) ++
    ((List.range ht).flatMap fun y => [.copy 0 y, .copy (wd - 1) y])

/-- `sweep_ops(fn)` (R135). -/
def sweepOps (fn : Filt) (wd ht : Nat) : List MicroOp := interiorOps fn wd ht ++ borderOps wd ht

/-- SWAPOP (R155): the roles of the buffers change; the stage counts up to 2. -/
def swapOpEffect (s : State) : State :=
  { s with sel := otherSlot s.sel, stage := if s.stage.toNat < 2 then s.stage + 1 else s.stage }

/-- One micro-op: PIXEL (R137), COPY (R138) or SWAPOP (R155), with `in = SEL` and `out = 1 − SEL` as they stand;
`none` if it forms an offset that does not exist, or a window around a coordinate that is not interior (R102). -/
def perform (s : State) : MicroOp → Option State
  | .pixel fn x y =>
    match s.readWindow s.sel x y with
    | some n => s.memWrite (otherSlot s.sel) (s.geo.off x y) (filterFn fn n)
    | none => none
  | .copy x y =>
    match s.memRead s.sel (s.geo.off x y) with
    | some v => s.memWrite (otherSlot s.sel) (s.geo.off x y) v
    | none => none
  | .swapOp => some (swapOpEffect s)

/-- The micro-ops of a list in order. -/
def performAll : List MicroOp → State → Option State
  | [], s => some s
  | op :: rest, s =>
    match perform s op with
    | some s' => performAll rest s'
    | none => none

/-- The start-up of a multi-step command: SEQ loaded with K = 0, BUSY set (R90, R139, R152). -/
def startSequence (m : Mode) (s : State) : State :=
  { s with mode := m, stage := 0, k := 0, busy := true }

/-- SWEEP.fn at acceptance (R139): the two checks, then the start-up; the engine steps follow. -/
def sweepCommand (fn : Filt) (s : State) : State :=
  match s.geometryTrap with
  | some t => raise t s.accept
  | none => startSequence (.sweep fn) s.accept

/-- SWEEP.SHARPEN (R139). -/
def execSweepSharpen (s : State) : Host.Outcome State Fault Refusal := .next (sweepCommand .sharpen s)

/-- SWEEP.SOBEL (R140). -/
def execSweepSobel (s : State) : Host.Outcome State Fault Refusal := .next (sweepCommand .sobel s)

/-- SWEEP.MEDIAN (R141). -/
def execSweepMedian (s : State) : Host.Outcome State Fault Refusal := .next (sweepCommand .median s)

end Sys2Proof.Machine
end

