-- ==== Sys2Proof/Machine/Pipeline.lean ====
section
/-!
DEFINITION. The dual-buffer ping-pong pipeline (`43_pipeline.md`): the pipeline as a function (R150), the micro-op list
of RUN (R153), the engine step (`42_plane_processor.md` R136), and the commands NOP, SWAP, RUN (R154, R151, R152).
-/

namespace Sys2Proof.Machine

/-- `pipeline(A0, B0)` (R150): Sharpen(A→B); EdgeMagnitude(B→A); Median(A→B). -/
def pipeline (g : Geometry) (a0 b0 : Nat → Byte) : (Nat → Byte) × (Nat → Byte) :=
  let b1 := sweep .sharpen g a0 b0
  let a2 := sweep .sobel g b1 a0
  let b3 := sweep .median g a2 b1
  (a2, b3)

/-- `run_ops` (R153). -/
def runOps (wd ht : Nat) : List MicroOp :=
  sweepOps .sharpen wd ht ++ [.swapOp] ++ sweepOps .sobel wd ht ++ [.swapOp] ++ sweepOps .median wd ht ++ [.swapOp]

/-- OPS of the command in progress (R27, R136); empty when the engine is idle. -/
def State.ops (s : State) : List MicroOp :=
  match s.mode with
  | .idle => []
  | .sweep fn => sweepOps fn s.geo.width s.geo.height
  | .run => runOps s.geo.width s.geo.height

/-- The last engine step of a command (R136): W and PIX unspecified, SEQ idle, BUSY cleared, DONE set. -/
def completeCommand (s : State) : State :=
  { s.drawRegs with mode := .idle, stage := 0, k := 0, busy := false, done := true }

/-- One engine step (R136), enabled when BUSY = 1. -/
def engineStep (s : State) : Host.Outcome State Fault Refusal :=
  match s.ops[s.k]? with
  | none => .fault .noMicroOp
  | some op =>
    match perform s op with
    | none => .fault .noSuchSample
    | some s' =>
      if s.k + 1 = s.ops.length then .next (completeCommand s') else .next (s'.setK (s.k + 1))

/-- NOP (R154). -/
def execNop (s : State) : Host.Outcome State Fault Refusal := .next s.accept.finish

/-- SWAP (R151): `SEL <- 1 − SEL`; no sample is moved. -/
def execSwap (s : State) : Host.Outcome State Fault Refusal :=
  .next { s.accept with sel := otherSlot s.sel }.finish

/-- RUN at acceptance (R152): the two checks, then SEL forced to A and the start-up; the engine steps follow. -/
def execRun (s : State) : Host.Outcome State Fault Refusal :=
  match s.geometryTrap with
  | some t => .next (raise t s.accept)
  | none => .next (startSequence .run { s.accept with sel := .a })

end Sys2Proof.Machine
end

