-- ==== Sys2Proof/Machine/Dispatch.lean ====
section
/-!
DEFINITION. The dispatch: each command to its meaning. `exec i s` is the acceptance of command `i` in state `s`
(`30_encoding.md` R90, from `DONE <- 0` on); whether the word is accepted at all is decided by the write to CMD.
-/

namespace Sys2Proof.Machine

def exec (i : Instr) (s : State) : Host.Outcome State Fault Refusal :=
  match i with
  | .nop => Sys2Proof.Machine.execNop s
  | .sample => Sys2Proof.Machine.execSample s
  | .filtSharpen => Sys2Proof.Machine.execFiltSharpen s
  | .filtSobel => Sys2Proof.Machine.execFiltSobel s
  | .filtMedian => Sys2Proof.Machine.execFiltMedian s
  | .sweepSharpen => Sys2Proof.Machine.execSweepSharpen s
  | .sweepSobel => Sys2Proof.Machine.execSweepSobel s
  | .sweepMedian => Sys2Proof.Machine.execSweepMedian s
  | .swap => Sys2Proof.Machine.execSwap s
  | .run => Sys2Proof.Machine.execRun s

end Sys2Proof.Machine
end

