-- ==== Sys2Proof/Machine/HostPort.lean ====
section
/-!
DEFINITION. What the host can do to the block: register reads and writes (`10_state.md` R29 to R34), the issue of a
command (`30_encoding.md` R90), plane reads and writes (`20_memory.md` R57), and whose turn it is (R5, R6, R204).
-/

namespace Sys2Proof.Machine

/-- The value a register reads as (R33): CMD and CTRL read 0, WIN2 and PIX have zeros above bit 7, CAUSE above bit 3. -/
def State.regValue (s : State) : RegName → Word
  | .id => Config.idValue
  | .cmd => 0
  | .status => s.status
  | .ctrl => 0
  | .width => s.width
  | .stride => s.stride
  | .height => s.height
  | .x => s.x
  | .y => s.y
  | .win0 => s.w.win0
  | .win1 => s.w.win1
  | .win2 => s.w.win2
  | .pix => s.pix.setWidth 32
  | .cause => s.cause.setWidth 32
  | .finfo => s.finfo
  | .cap => s.bufCap

/-- The registers that the engine uses while it runs (R34): WIN0, WIN1, WIN2 and PIX. -/
def usedByEngine : RegName → Bool
  | .win0 => true
  | .win1 => true
  | .win2 => true
  | .pix => true
  | _ => false

/-- HostRegRead (R34): no side effect on the block; WIN0 to WIN2 and PIX read as a fresh free word while BUSY = 1 (U21,
log 6); a reserved index reads as 0. -/
def hostRegRead (s : State) (index : Nat) : State :=
  match regOfIndex index with
  | none => s.answer (.reg 0)
  | some r =>
    if s.busy && usedByEngine r then { s with draws := s.draws + 1 }.answer (.reg (Config.freeWord s.draws))
    else s.answer (.reg (s.regValue r))

/-- A write to a writable register other than CTRL is dropped, setting WERR, while BUSY = 1 or FAULT = 1 (R34). -/
def State.gated (s : State) (effect : State) : State := if s.locked then s.setWerr else effect

/-- The issue of a command (R30, R90): dropped while BUSY = 1 or FAULT = 1; else DONE is cleared, the word is decoded,
an illegal word raises IllegalCommand with the word in FINFO (R171), and a command is carried out. -/
def issueCommand (s : State) (c : Word) : Host.Outcome State Fault Refusal :=
  if s.locked then .next s.setWerr
  else
    match decode c with
    | .instr i => exec i s
    | .illegal _ => .next (raise (.illegalCommand c) s.accept)

/-- HostRegWrite (R34): CMD issues a command, CTRL bit 0 resets (R29), the geometry, coordinate and window registers
store unless locked, writes to read-only registers and reserved indices are ignored. -/
def hostRegWrite (s : State) (index : Nat) (v : Word) : Host.Outcome State Fault Refusal :=
  match regOfIndex index with
  | none => .next s
  | some .id => .next s
  | some .cmd => issueCommand s v
  | some .status => .next s
  | some .ctrl => .next (if v.getLsbD 0 then softReset s else s)
  | some .width => .next (s.gated { s with width := v })
  | some .stride => .next (s.gated { s with stride := v })
  | some .height => .next (s.gated { s with height := v })
  | some .x => .next (s.gated { s with x := v })
  | some .y => .next (s.gated { s with y := v })
  | some .win0 => .next (s.gated { s with w := s.w.setWin0 v })
  | some .win1 => .next (s.gated { s with w := s.w.setWin1 v })
  | some .win2 => .next (s.gated { s with w := s.w.setWin2 v })
  | some .pix => .next s
  | some .cause => .next s
  | some .finfo => .next s
  | some .cap => .next s

/-- HostPlaneRead (R57): 0 and WERR beyond the buffer, a fresh free byte while BUSY = 1 (U22, log 6), else the
sample. -/
def hostPlaneRead (s : State) (slot : Slot) (off : Nat) : State :=
  if s.bufCap.toNat ≤ off then s.setWerr.answer (.sample 0)
  else if s.busy then { s with draws := s.draws + 1 }.answer (.sample (Config.freeByte s.draws))
  else s.answer (.sample (s.byte slot off))

/-- HostPlaneWrite (R57): dropped with WERR beyond the buffer and while BUSY = 1 or FAULT = 1, else stored. -/
def hostPlaneWrite (s : State) (slot : Slot) (off : Nat) (v : Byte) : State :=
  if s.bufCap.toNat ≤ off then s.setWerr
  else if s.locked then s.setWerr
  else s.setBuf slot ((s.buf slot).write off v)

/-- One host access. -/
def hostAccess (s : State) : HostAct → Host.Outcome State Fault Refusal
  | .regRead index => .next (hostRegRead s index)
  | .regWrite index v => hostRegWrite s index v
  | .planeRead slot off => .next (hostPlaneRead s slot off)
  | .planeWrite slot off v => .next (hostPlaneWrite s slot off v)

/-- The engine's turn: a step if BUSY = 1, else it has no enabled step and nothing changes (R136, U31, U32, log 3). -/
def engineTurn (s : State) : Host.Outcome State Fault Refusal :=
  if s.busy then engineStep s else .next s

/-- One step of the whole system (R5, R6): the next turn of the agenda, or, when no turn is pending, the engine's
(fairness, R204). A host that waits (R89) lets a busy engine step and goes on once STATUS reads BUSY = 0 (log 3). -/
def takeTurn (s : State) : Host.Outcome State Fault Refusal :=
  match s.agenda with
  | [] => engineTurn s
  | .host act :: rest => hostAccess { s with agenda := rest } act
  | .engine :: rest => engineTurn { s with agenda := rest }
  | .wait :: rest => if s.busy then engineStep s else .next (hostRegRead { s with agenda := rest } 2)
  | .hardReset :: rest => .next (hardReset { s with agenda := rest })

/-- The state in which the host's next access writes the word `c` to CMD (R30). -/
def State.withCommand (s : State) (c : Word) : State := { s with agenda := .host (.regWrite 1 c) :: s.agenda }

end Sys2Proof.Machine
end

