-- ==== Sys2Proof/Machine/Step.lean ====
section
/-!
DEFINITION. The step function of the whole system, and how an instruction word is placed where the next step takes it.
-/

namespace Sys2Proof.Machine

/-- One atomic step (R5, R6). -/
def step (s : State) : Host.Outcome State Fault Refusal := takeTurn s

/-- `s` with the command word of a table row about to be written to CMD: the block fetches nothing, a command is the
value the host writes (R30, R63, R80, log 3). -/
def State.withFetchWord (s : State) (nbits w : Nat) : State := s.withCommand (BitVec.ofNat 32 (w % 2 ^ nbits))

end Sys2Proof.Machine
end

