-- ==== Sys2Proof/Machine/Script.lean ====
section
/-!
DEFINITION. Host scripts: what each line of `30_encoding.md` R88 and each pseudo-instruction of R89 stands for, the
transfer protocol of `20_memory.md` R66 and the order of `70_reset_and_hazards.md` R202, as turns of the agenda.
-/

namespace Sys2Proof.Machine

/-- `wr REG, value` (R88). -/
def writeReg (r : RegName) (v : Word) : Turn := .host (.regWrite (regIndex r) v)

/-- `cmd MNEMONIC` (R88): a write of the word of R84 to CMD. -/
def command (i : Instr) : Turn := writeReg .cmd (encode i)

/-- `load slot, [b0, ..., bn-1]` from offset `start` on (R89). -/
def loadFrom (slot : Slot) : (start : Nat) → List Byte → List Turn
  | _, [] => []
  | start, b :: rest => .host (.planeWrite slot start b) :: loadFrom slot (start + 1) rest

/-- `dump slot, n` (R89). -/
def dumpSlot (slot : Slot) (n : Nat) : List Turn := (List.range n).map fun i => .host (.planeRead slot i)

/-- The turns that a script line stands for (R88, R89). -/
def expandLine : ScriptLine → List Turn
  | .wr r v => [writeReg r v]
  | .rd r => [.host (.regRead (regIndex r))]
  | .pw slot off v => [.host (.planeWrite slot off v)]
  | .pr slot off => [.host (.planeRead slot off)]
  | .cmd i => [command i]
  | .setgeo w s h => [writeReg .width w, writeReg .stride s, writeReg .height h]
  | .setxy x y => [writeReg .x x, writeReg .y y]
  | .setwin v0 v1 v2 v3 v4 v5 v6 v7 v8 =>
    [writeReg .win0 (BitVec.ofNat 32 (v0.toNat + 256 * v1.toNat + 65536 * v2.toNat + 16777216 * v3.toNat)),
     writeReg .win1 (BitVec.ofNat 32 (v4.toNat + 256 * v5.toNat + 65536 * v6.toNat + 16777216 * v7.toNat)),
     writeReg .win2 (BitVec.ofNat 32 v8.toNat)]
  | .load slot bytes => loadFrom slot 0 bytes
  | .dump slot n => dumpSlot slot n
  | .wait => [.wait]
  | .reset => [writeReg .ctrl 1]
  | .sharpen => [command .filtSharpen]
  | .sobel => [command .filtSobel]
  | .median => [command .filtMedian]
  | .run => [command .run, .wait]

/-- A whole script. -/
def expandScript (lines : List ScriptLine) : List Turn := lines.flatMap expandLine

/-- `loadPlane` (R66, R202): the first `stride*height` bytes of the resource into slot A, then the geometry. With fewer
bytes than required the host reports IOError and issues nothing (R180). -/
def loadPlane (bytes : List Byte) (w s h : Word) : Option (List Turn) :=
  if bytes.length < s.toNat * h.toNat then none
  else some (loadFrom .a 0 (bytes.take (s.toNat * h.toNat)) ++ expandLine (.setgeo w s h))

/-- `runPipeline` (R66): issue RUN and wait until BUSY = 0. -/
def runPipeline : List Turn := expandLine .run

/-- `storePlane` (R66): read `stride*height` samples of slot B, in order. -/
def storePlane (s h : Word) : List Turn := dumpSlot .b (s.toNat * h.toNat)

end Sys2Proof.Machine
end

