-- ==== Sys2Proof/Safety.lean ====
section
/-!
DEFINITION. What the statements mean by a good state, by the end of a run (`70_reset_and_hazards.md` R206) and by what
the host may rely on.
-/

namespace Sys2Proof.Machine

/-- What every reachable state satisfies. From it follow the spec's own remarks that no engine step can fault (R136),
that BUSY excludes FAULT and DONE (R28), and that K never wraps (R27). -/
structure State.Inv (s : State) : Prop where
  /-- Both buffers are in canonical form and list only offsets that exist (R21). -/
  memA : s.bufA.wf ∧ s.bufA.within s.bufCap.toNat
  memB : s.bufB.wf ∧ s.bufB.within s.bufCap.toNat
  /-- 1 ≤ BUF_CAP (R4). -/
  capPos : 1 ≤ s.bufCap.toNat
  /-- MODE = IDLE if and only if BUSY = 0 (R27). -/
  modeBusy : s.mode = .idle ↔ s.busy = false
  /-- STAGE and K are 0 when MODE = IDLE (R27). -/
  idleSeq : s.mode = .idle → s.stage = 0 ∧ s.k = 0
  /-- STAGE is 0 in every mode but RUN (R27). -/
  sweepStage : ∀ fn, s.mode = .sweep fn → s.stage = 0
  /-- BUSY excludes FAULT and DONE (R28). -/
  busyClean : s.busy = true → s.fault = false ∧ s.done = false
  /-- A fault leaves DONE at 0 (R176). -/
  faultDone : s.fault = true → s.done = false
  /-- CAUSE and FINFO are 0 while FAULT = 0 (R31). -/
  noFaultRecord : s.fault = false → s.cause = 0 ∧ s.finfo = 0
  /-- CAUSE values 5 to 15 never occur (R170). -/
  faultCause : s.fault = true → 1 ≤ s.cause.toNat ∧ s.cause.toNat ≤ 4
  /-- The geometry of a running command passed its checks and has not changed (R34, R186). -/
  busyGeo : s.busy = true → s.geo.valid ∧ s.geo.fits s.bufCap.toNat
  /-- K is the index of a micro-op that exists (R27). -/
  busyK : s.busy = true → s.k < s.ops.length
  /-- During RUN, STAGE is the stage that K is in and SEL is its input slot (R152, R153, R155). -/
  runStage : s.mode = .run →
    s.stage.toNat ≤ 2 ∧
    s.stage.toNat * ((sweepOps .sharpen s.geo.width s.geo.height).length + 1) ≤ s.k ∧
    s.k < (s.stage.toNat + 1) * ((sweepOps .sharpen s.geo.width s.geo.height).length + 1) ∧
    s.sel = if s.stage = 1 then .b else .a

/-- `n` steps of the whole system, stopping at the first fault or refusal. -/
def steps : Nat → State → Host.Outcome State Fault Refusal
  | 0, s => .next s
  | n + 1, s =>
    match step s with
    | .next s' => steps n s'
    | .fault r => .fault r
    | .refused r => .refused r

/-- The next turn is a reset: a hard reset, or a host write to CTRL with bit 0 set (R29, R200, R201). -/
def State.nextIsReset (s : State) : Prop :=
  s.agenda.head? = some .hardReset ∨
    ∃ v : Word, s.agenda.head? = some (.host (.regWrite 3 v)) ∧ v.getLsbD 0 = true

/-- The next turn is a host access that the block ignores with WERR (R179): a write to CMD, WIDTH, STRIDE, HEIGHT, X,
Y, WIN0, WIN1 or WIN2 or to plane space while BUSY = 1 or FAULT = 1, or a plane access at or beyond BUF_CAP. -/
def State.nextIsDropped (s : State) : Prop :=
  (∃ (r : Nat) (v : Word), s.agenda.head? = some (.host (.regWrite r v)) ∧ r ∈ [1, 4, 5, 6, 7, 8, 9, 10, 11] ∧
    (s.busy = true ∨ s.fault = true)) ∨
  (∃ (slot : Slot) (off : Nat) (v : Byte), s.agenda.head? = some (.host (.planeWrite slot off v)) ∧
    (s.busy = true ∨ s.fault = true ∨ s.bufCap.toNat ≤ off)) ∨
  (∃ (slot : Slot) (off : Nat), s.agenda.head? = some (.host (.planeRead slot off)) ∧ s.bufCap.toNat ≤ off)

/-- The states that some agenda and some BUF_CAP of R4 lead to. -/
inductive Reachable : State → Prop
  | start (agenda : List Turn) (cap : Word) (pos : 1 ≤ cap.toNat) :
      Reachable { State.reset with agenda := agenda, bufCap := cap }
  | next {s s' : State} (h : Reachable s) (hs : step s = .next s') : Reachable s'

/-- A run has ended when the host reads STATUS with BUSY = 0; it ended well if that read shows FAULT = 0 and DONE = 1
(R206). -/
def State.endedWell (s : State) : Bool :=
  !s.status.getLsbD 0 && !s.status.getLsbD 2 && s.status.getLsbD 1

/-- A run ended badly if that read shows FAULT = 1 (R206). -/
def State.endedBadly (s : State) : Bool := !s.status.getLsbD 0 && s.status.getLsbD 2

end Sys2Proof.Machine
end

