-- ==== Sys2Proof/Certificates/Slice0/Obligations.lean ====
section
/-!
DEFINITION. The statements for the provers, one `def Obligations.<Name> : Prop` each; OBLIGATIONS.json lists them. They
speak about every state, hence about every BUF_CAP and every content of the buffers. A statement that names a free
constant of Config holds whatever that constant is.
-/

open Sys2Proof Sys2Proof.Machine

/-! ## Encoding (`30_encoding.md`) -/

/-- R84: the ten legal command words, and that no other word is a command. -/
def Obligations.LegalWordsAreExactlyTen : Prop :=
  encode .nop = 0x00000000#32 ∧ encode .sample = 0x00000001#32 ∧ encode .filtSharpen = 0x00000002#32 ∧
  encode .filtSobel = 0x00000102#32 ∧ encode .filtMedian = 0x00000202#32 ∧ encode .sweepSharpen = 0x00000003#32 ∧
  encode .sweepSobel = 0x00000103#32 ∧ encode .sweepMedian = 0x00000203#32 ∧ encode .swap = 0x00000004#32 ∧
  encode .run = 0x00000005#32 ∧
  ∀ (c : Word) (i : Instr), decode c = .instr i ↔ c = encode i

/-- R91: the decoder on the three fields of any word. -/
def Obligations.DecoderFollowsItsTable : Prop :=
  ∀ (zero : BitVec 22) (fn : BitVec 2) (opc : BitVec 8) (i : Instr),
    decode ((zero ++ fn ++ opc).setWidth 32) = .instr i ↔
      zero = 0 ∧ (opc.toNat, fn.toNat, i) ∈
        [(0x00, 0, Instr.nop), (0x01, 0, .sample), (0x02, 0, .filtSharpen), (0x02, 1, .filtSobel),
         (0x02, 2, .filtMedian), (0x03, 0, .sweepSharpen), (0x03, 1, .sweepSobel), (0x03, 2, .sweepMedian),
         (0x04, 0, .swap), (0x05, 0, .run)]

/-- Words written out from the spec's encoding decode to the commands they stand for (R84); no bit dropped. -/
def Obligations.HandWrittenWordsDecode : Prop :=
  decode 0b00000000000000000000000000000001#32 = .instr .sample ∧
  decode 0b00000000000000000000000100000010#32 = .instr .filtSobel ∧
  decode 0b00000000000000000000001000000011#32 = .instr .sweepMedian ∧
  decode 0b00000000000000000000000000000100#32 = .instr .swap ∧
  decode 0b00000000000000000000000000000101#32 = .instr .run ∧
  decodeTableWord 32 0x00000203 = some .sweepMedian ∧ decodeTableWord 32 0x00000303 = none ∧
  decodeTableWord 32 0x00000403 = none

/-- R85 and R171: every word that is none of the ten, written to CMD of an idle unfaulted block, raises IllegalCommand
with the word in FINFO, and the words of the four cases of R85 are exactly these. -/
def Obligations.IllegalWordRaisesIllegalCommand : Prop :=
  ∀ (s : State) (c : Word) (rest : List Turn),
    s.agenda = .host (.regWrite 1 c) :: rest → s.busy = false → s.fault = false →
    (((∀ i, c ≠ encode i) ↔
        c.extractLsb' 10 22 ≠ 0 ∨ 0x06 ≤ (c.extractLsb' 0 8).toNat ∨
        (c.extractLsb' 8 2 = 3 ∧ (c.extractLsb' 0 8 = 0x02 ∨ c.extractLsb' 0 8 = 0x03)) ∨
        (c.extractLsb' 8 2 ≠ 0 ∧ c.extractLsb' 0 8 ∈ [0x00#8, 0x01#8, 0x04#8, 0x05#8])) ∧
      ((∀ i, c ≠ encode i) →
        step s = .next { s with agenda := rest, done := false, fault := true, cause := 1, finfo := c }))

/-! ## Issue of a command (R30, R63, R90) -/

/-- A step runs the decoded command: a write to CMD of an idle unfaulted block is the acceptance of the command that the
word decodes to (R90). -/
def Obligations.StepRunsIssuedCommand : Prop :=
  ∀ (s : State) (c : Word) (i : Instr) (rest : List Turn),
    s.agenda = .host (.regWrite 1 c) :: rest → s.busy = false → s.fault = false → decode c = .instr i →
    i.wf = true ∧ step s = exec i { s with agenda := rest }

/-- The word that `withFetchWord` places is the very next command (log 3). -/
def Obligations.FetchWordRunsNext : Prop :=
  ∀ (s : State) (nbits w : Nat) (i : Instr),
    s.busy = false → s.fault = false → decodeTableWord nbits w = some i → step (s.withFetchWord nbits w) = exec i s

/-! ## The single-step commands -/

/-- R154: NOP completes in every state and sets DONE only; its word; dropped while BUSY = 1 or FAULT = 1; the example. -/
def Obligations.NopOnlySetsDone : Prop :=
  encode .nop = 0x00000000#32 ∧
  (∀ s : State, exec .nop s = .next { s with done := true }) ∧
  (∀ (s : State) (rest : List Turn), s.agenda = .host (.regWrite 1 0x00000000#32) :: rest →
    (s.busy = true ∨ s.fault = true) → step s = .next { s with agenda := rest, werr := true }) ∧
  (∀ t, exec .nop State.reset = .next t → t.status = 0x00000002#32)

/-- R151: SWAP toggles SEL and moves no sample; twice restores SEL; the example. -/
def Obligations.SwapTogglesSel : Prop :=
  encode .swap = 0x00000004#32 ∧
  (∀ s : State, exec .swap s = .next { s with sel := otherSlot s.sel, done := true }) ∧
  (∀ s t u : State, exec .swap s = .next t → exec .swap t = .next u → t.sel ≠ s.sel ∧ u.sel = s.sel) ∧
  (∀ s t : State, exec .swap s = .next t → t.status.getLsbD 4 = decide (t.sel = .b)) ∧
  (∀ t, exec .swap State.reset = .next t → t.status = 0x00000012#32)

/-- R113: FILT.SHARPEN in every state writes `sharpen(W)` to PIX and sets DONE; the corner cases and the example. -/
def Obligations.FiltSharpenWritesPix : Prop :=
  encode .filtSharpen = 0x00000002#32 ∧
  (∀ s : State, exec .filtSharpen s = .next { s with pix := sharpen s.w, done := true }) ∧
  (∀ v : Byte, sharpen ⟨v, v, v, v, v, v, v, v, v⟩ = v) ∧
  (∀ (n : Window) (a b c d : Byte), sharpen { n with tl := a, tr := b, bl := c, br := d } = sharpen n) ∧
  (∀ n : Window, n.mc = 0 → sharpen n = 0) ∧
  sharpen ⟨0, 2, 0, 2, 1, 1, 0, 1, 0⟩ = 0 ∧ sharpen ⟨0, 0, 0, 0, 85, 0, 0, 0, 0⟩ = 255 ∧
  sharpen ⟨0, 0, 0, 0, 84, 0, 0, 0, 0⟩ = 252 ∧ sharpen ⟨0, 0, 0, 0, 255, 0, 0, 0, 0⟩ = 255 ∧
  sharpen ⟨0, 255, 0, 255, 0, 255, 0, 255, 0⟩ = 0 ∧ sharpen ⟨0, 1, 0, 0, 1, 0, 0, 0, 0⟩ = 3 ∧
  sharpen ⟨10, 20, 10, 20, 30, 20, 10, 20, 10⟩ = 50

/-- R118: FILT.SOBEL in every state writes `sobel(W)` to PIX and sets DONE; corner cases and the examples. -/
def Obligations.FiltSobelWritesPix : Prop :=
  encode .filtSobel = 0x00000102#32 ∧
  (∀ s : State, exec .filtSobel s = .next { s with pix := sobel s.w, done := true }) ∧
  (∀ v : Byte, sobel ⟨v, v, v, v, v, v, v, v, v⟩ = 0) ∧
  (∀ (v : Byte) (n : Window), sobel { n with mc := v } = sobel n) ∧
  (∀ v h : Byte, v.toNat + h.toNat < 256 →
    (sobel ⟨v, v, v + h, v, v, v + h, v, v, v + h⟩).toNat = min (4 * h.toNat) 255) ∧
  sobel ⟨0, 0, 0, 0, 0, 0, 0, 0, 1⟩ = 1 ∧ sobel ⟨0, 0, 0, 0, 0, 1, 0, 1, 0⟩ = 3 ∧
  sobel ⟨0, 0, 0, 0, 0, 2, 0, 1, 0⟩ = 4 ∧ sobel ⟨0, 0, 0, 0, 0, 3, 0, 3, 0⟩ = 8 ∧
  sobel ⟨0, 0, 0, 0, 0, 3, 0, 2, 1⟩ = 9 ∧ sobel ⟨0, 0, 0, 0, 0, 127, 0, 0, 0⟩ = 254 ∧
  sobel ⟨0, 0, 0, 0, 0, 117, 0, 50, 0⟩ = 254 ∧ sobel ⟨0, 0, 0, 0, 0, 114, 0, 55, 1⟩ = 254 ∧
  sobel ⟨0, 0, 0, 0, 0, 127, 0, 8, 0⟩ = 255 ∧ sobel ⟨0, 0, 0, 0, 0, 117, 0, 49, 1⟩ = 255 ∧
  sobel ⟨0, 0, 0, 0, 0, 128, 0, 0, 0⟩ = 255 ∧ sobel ⟨20, 30, 40, 200, 80, 90, 120, 13, 140⟩ = 245

/-- R121: FILT.MEDIAN in every state writes `median(W)` to PIX and sets DONE, W not sorted; corner cases, examples. -/
def Obligations.FiltMedianWritesPix : Prop :=
  encode .filtMedian = 0x00000202#32 ∧
  (∀ s : State, exec .filtMedian s = .next { s with pix := median s.w, done := true }) ∧
  (∀ v : Byte, median ⟨v, v, v, v, v, v, v, v, v⟩ = v) ∧
  (∀ n : Window, n.toList.Perm [0, 0, 0, 0, 255, 255, 255, 255, 255] → median n = 255) ∧
  (∀ n : Window, n.toList.Perm [0, 0, 0, 0, 0, 255, 255, 255, 255] → median n = 0) ∧
  (∀ n : Window, n.toList.Perm [1, 2, 3, 4, 5, 6, 7, 8, 9] → median n = 5) ∧
  median ⟨5, 5, 5, 5, 0, 0, 0, 0, 255⟩ = 5 ∧ median ⟨20, 30, 40, 200, 80, 90, 120, 13, 140⟩ = 80

/-- R100 and R102: the nine samples in row-major kernel order, for x ≥ 1 and y ≥ 1; elsewhere there is no window, and no
plane and no slot has one around a coordinate that is not interior. -/
def Obligations.SampleIsRowMajor : Prop :=
  (∀ (buf : Nat → Byte) (stride x y : Nat), 1 ≤ x → 1 ≤ y →
    ∃ n, sample buf stride x y = some n ∧ n.toList =
      (List.range 3).flatMap fun r => (List.range 3).map fun c => buf ((y + r - 1) * stride + (x + c - 1))) ∧
  (∀ (buf : Nat → Byte) (stride x y : Nat), (x = 0 ∨ y = 0) → sample buf stride x y = none) ∧
  (∀ (g : Geometry) (buf : Nat → Byte) (x y : Nat),
    (g.interior x y → g.window buf x y = sample buf g.stride x y) ∧ (¬ g.interior x y → g.window buf x y = none)) ∧
  (∀ (s : State) (slot : Slot) (x y : Nat), ¬ s.geo.interior x y → s.readWindow slot x y = none)

/-- R101: SAMPLE loads W with the neighbourhood of (X, Y) in the input slot, or raises the first of its three faults with
nothing else changed. The faults carry CAUSE 2, 3, 4 of R170. -/
def Obligations.SampleLoadsWindow : Prop :=
  encode .sample = 0x00000001#32 ∧
  ∀ s : State,
    (s.geo.valid → s.geo.fits s.bufCap.toNat → s.geo.interior s.x.toNat s.y.toNat →
      ∃ n, sample (s.byte s.sel) s.stride.toNat s.x.toNat s.y.toNat = some n ∧
        exec .sample s = .next { s with w := n, done := true }) ∧
    (¬ s.geo.valid →
      exec .sample s =
        .next { s with done := false, fault := true, cause := 2, finfo := s.geo.faultMask }) ∧
    (s.geo.valid → ¬ s.geo.fits s.bufCap.toNat →
      exec .sample s = .next { s with done := false, fault := true, cause := 3, finfo := 0 }) ∧
    (s.geo.valid → s.geo.fits s.bufCap.toNat → ¬ s.geo.interior s.x.toNat s.y.toNat →
      exec .sample s = .next { s with done := false, fault := true, cause := 4, finfo := 0 })

/-! ## Faults (`60_exceptions.md`) -/

/-- R172: the five commands that need the geometry fault on an invalid one, with the mask of the tests that failed. -/
def Obligations.InvalidGeometryFaultMask : Prop :=
  ∀ (s : State) (i : Instr), ¬ s.geo.valid → i ∈ [.sample, .sweepSharpen, .sweepSobel, .sweepMedian, .run] →
    ∃ m : Word, exec i s = .next { s with done := false, fault := true, cause := 2, finfo := m } ∧
      m.getLsbD 0 = decide (s.width = 0) ∧ m.getLsbD 1 = decide (s.stride = 0) ∧
      m.getLsbD 2 = decide (s.height = 0) ∧ m.getLsbD 3 = decide (s.stride.toNat < s.width.toNat) ∧
      ∀ j, 4 ≤ j → m.getLsbD j = false

/-- R173: the same five commands fault when the plane, computed without wrap-around, exceeds BUF_CAP; when it does not,
every in-plane offset is below BUF_CAP (the spec's inference from its definition of `fits`). -/
def Obligations.CapacityExceededFault : Prop :=
  ∀ s : State, s.geo.valid →
    (s.bufCap.toNat < s.stride.toNat * s.height.toNat →
      ∀ i ∈ [Instr.sample, .sweepSharpen, .sweepSobel, .sweepMedian, .run],
        exec i s = .next { s with done := false, fault := true, cause := 3, finfo := 0 }) ∧
    (s.stride.toNat * s.height.toNat ≤ s.bufCap.toNat →
      ∀ x y, x < s.width.toNat → y < s.height.toNat → y * s.stride.toNat + x < s.bufCap.toNat)

/-- R174: SAMPLE at a coordinate that is not interior faults with FINFO 0; W is not written. -/
def Obligations.NonInteriorFault : Prop :=
  ∀ s : State, s.geo.valid → s.geo.fits s.bufCap.toNat →
    (s.x.toNat = 0 ∨ s.width.toNat < s.x.toNat + 2 ∨ s.y.toNat = 0 ∨ s.height.toNat < s.y.toNat + 2) →
    exec .sample s = .next { s with done := false, fault := true, cause := 4, finfo := 0 }

/-- R170 and R186: which word or command raises what, in the order tested, at the acceptance step. -/
def Obligations.FaultTable : Prop :=
  ∀ (s t : State) (c : Word) (rest : List Turn),
    s.agenda = .host (.regWrite 1 c) :: rest → s.busy = false → s.fault = false → s.cause = 0 → s.finfo = 0 →
    step s = .next t →
    (∀ why, decode c = .illegal why → t.fault = true ∧ t.cause = 1 ∧ t.finfo = c) ∧
    (∀ i, decode c = .instr i →
      (i ∈ [.nop, .swap, .filtSharpen, .filtSobel, .filtMedian] → t.fault = false ∧ t.cause = 0 ∧ t.finfo = 0) ∧
      (i ∈ [.sample, .sweepSharpen, .sweepSobel, .sweepMedian, .run] →
        (¬ s.geo.valid → t.fault = true ∧ t.cause = 2 ∧ t.finfo = s.geo.faultMask) ∧
        (s.geo.valid → ¬ s.geo.fits s.bufCap.toNat → t.fault = true ∧ t.cause = 3 ∧ t.finfo = 0) ∧
        (s.geo.valid → s.geo.fits s.bufCap.toNat →
          (i = .sample → ¬ s.geo.interior s.x.toNat s.y.toNat → t.fault = true ∧ t.cause = 4 ∧ t.finfo = 0) ∧
          (i ≠ .sample ∨ s.geo.interior s.x.toNat s.y.toNat → t.fault = false ∧ t.cause = 0 ∧ t.finfo = 0))))

/-- R176: faults are precise. A step that takes an unfaulted block to FAULT = 1 is the acceptance of a word, and it has
changed FAULT, CAUSE, FINFO and DONE only. -/
def Obligations.FaultsArePrecise : Prop :=
  ∀ s t : State, s.fault = false → step s = .next t → t.fault = true →
    ∃ (c : Word) (rest : List Turn) (tr : Trap), s.agenda = .host (.regWrite 1 c) :: rest ∧ s.busy = false ∧
      t = { s with agenda := rest, done := false, fault := true, cause := tr.code, finfo := tr.info }

/-- R177: a fault is fatal and sticky. In a faulted state that Inv describes, a turn that is not a reset changes nothing
of the block but WERR; a command and a write to a writable register or to plane space are dropped with WERR; host reads
still work; a reset, and nothing else, clears FAULT, CAUSE and FINFO. -/
def Obligations.FaultIsSticky : Prop :=
  ∀ s t : State, s.Inv → s.fault = true → step s = .next t →
    (¬ s.nextIsReset → t = { s with werr := t.werr, agenda := t.agenda, replies := t.replies }) ∧
    (∀ (r : Nat) (v : Word) (rest : List Turn), s.agenda = .host (.regWrite r v) :: rest →
      r ∈ [1, 4, 5, 6, 7, 8, 9, 10, 11] → t.werr = true) ∧
    (∀ (slot : Slot) (off : Nat) (v : Byte) (rest : List Turn),
      s.agenda = .host (.planeWrite slot off v) :: rest → t.werr = true) ∧
    (∀ (slot : Slot) (off : Nat) (rest : List Turn), s.agenda = .host (.planeRead slot off) :: rest →
      off < s.bufCap.toNat → t.replies = .sample (s.byte slot off) :: s.replies) ∧
    (∀ (r : Nat) (rest : List Turn), s.agenda = .host (.regRead r) :: rest →
      ∃ v : Word, t.replies = .reg v :: s.replies ∧ (r = 2 → v = s.status) ∧
        (r = 13 → v.toNat = s.cause.toNat) ∧ (r = 14 → v = s.finfo)) ∧
    (s.nextIsReset → t.fault = false ∧ t.cause = 0 ∧ t.finfo = 0)

/-- R179: when WERR is set and what clears it: after any step WERR is 1 exactly if the turn was no reset and WERR was 1
or the turn was an access that the block ignored; and such an access does nothing else to the block. -/
def Obligations.WerrExactly : Prop :=
  ∀ s t : State, step s = .next t →
    (t.werr = true ↔ ¬ s.nextIsReset ∧ (s.werr = true ∨ s.nextIsDropped)) ∧
    (s.nextIsDropped → t = { s with werr := true, agenda := s.agenda.tail, replies := t.replies })

/-! ## The sweep (`42_plane_processor.md`) -/

/-- R139 to R141 at acceptance: the three SWEEP commands start the engine when both checks pass. -/
def Obligations.SweepCommandsStart : Prop :=
  ∀ s : State, s.geo.valid → s.geo.fits s.bufCap.toNat →
    exec .sweepSharpen s =
      .next { s with done := false, mode := .sweep .sharpen, stage := 0, k := 0, busy := true } ∧
    exec .sweepSobel s =
      .next { s with done := false, mode := .sweep .sobel, stage := 0, k := 0, busy := true } ∧
    exec .sweepMedian s =
      .next { s with done := false, mode := .sweep .median, stage := 0, k := 0, busy := true }

/-- R135: the list of micro-ops and its length. `List.range' 1 n` is 1 .. n. -/
def Obligations.SweepOpsList : Prop :=
  ∀ (fn : Filt) (wd ht : Nat),
    sweepOps fn wd ht =
      ((List.range' 1 (ht - 2)).flatMap fun y => (List.range' 1 (wd - 2)).map fun x => MicroOp.pixel fn x y) ++
      ((List.range wd).flatMap fun x => [MicroOp.copy x 0, .copy x (ht - 1)]) ++
      ((List.range ht).flatMap fun y => [MicroOp.copy 0 y, .copy (wd - 1) y]) ∧
    (sweepOps fn wd ht).length = max (wd - 2) 0 * max (ht - 2) 0 + 2 * wd + 2 * ht

/-- Every PIXEL is built with an interior coordinate and every COPY with a border one (R137, R138), and all of them
occur. -/
def Obligations.SweepOpsCoverThePlane : Prop :=
  ∀ (fn : Filt) (g : Geometry), g.valid → ∀ op : MicroOp,
    op ∈ sweepOps fn g.width g.height ↔
      (∃ x y, op = .pixel fn x y ∧ g.interior x y) ∨ (∃ x y, op = .copy x y ∧ g.border x y)

/-- R137, R138, R155: what each micro-op does, with `in = SEL` and `out = 1 − SEL` as they stand: one sample of the output
slot, every other sample of both slots and every other field unchanged; or the swap of roles. PIXEL has no effect to
perform around a coordinate that is not interior (R102). -/
def Obligations.MicroOpEffects : Prop :=
  (∀ (s : State) (fn : Filt) (x y : Nat), s.geo.valid → s.geo.fits s.bufCap.toNat → s.geo.interior x y →
    ∃ n t, sample (s.byte s.sel) s.stride.toNat x y = some n ∧ perform s (.pixel fn x y) = some t ∧
      t.byte (otherSlot s.sel) (y * s.stride.toNat + x) = filterFn fn n ∧
      (∀ o, o ≠ y * s.stride.toNat + x → t.byte (otherSlot s.sel) o = s.byte (otherSlot s.sel) o) ∧
      t = s.setBuf (otherSlot s.sel) (t.buf (otherSlot s.sel))) ∧
  (∀ (s : State) (fn : Filt) (x y : Nat), ¬ s.geo.interior x y → perform s (.pixel fn x y) = none) ∧
  (∀ (s : State) (x y : Nat), s.geo.valid → s.geo.fits s.bufCap.toNat → s.geo.border x y →
    ∃ t, perform s (.copy x y) = some t ∧
      t.byte (otherSlot s.sel) (y * s.stride.toNat + x) = s.byte s.sel (y * s.stride.toNat + x) ∧
      (∀ o, o ≠ y * s.stride.toNat + x → t.byte (otherSlot s.sel) o = s.byte (otherSlot s.sel) o) ∧
      t = s.setBuf (otherSlot s.sel) (t.buf (otherSlot s.sel))) ∧
  (∀ s : State, perform s .swapOp =
    some { s with sel := otherSlot s.sel, stage := if s.stage.toNat < 2 then s.stage + 1 else s.stage })

/-- One engine step. It is taken when no turn is pending, when the agenda offers a turn to the engine, and when the host
waits on a busy engine (the turns are the model's choice, log 3); with BUSY = 0 an offered turn changes the agenda only,
and a wait ends with a STATUS read. A step performs OPS[K] and counts K; the last one leaves W and PIX unspecified (as
the free values of the next ten draws, whatever they are, the model's choice, log 1), SEQ idle, BUSY 0, DONE 1. OPS has
at least four elements and no engine step can fault, in every state of Inv. -/
def Obligations.EngineStepPerformsNextMicroOp : Prop :=
  (∀ (s : State) (fn : Filt), s.mode = .sweep fn → s.ops = sweepOps fn s.width.toNat s.height.toNat) ∧
  (∀ s : State, s.mode = .run → s.ops = runOps s.width.toNat s.height.toNat) ∧
  (∀ s u : State,
    (s.agenda = [] ∧ u = s) ∨ (∃ rest, s.agenda = .engine :: rest ∧ u = { s with agenda := rest }) →
    s.busy = false → step s = .next u) ∧
  (∀ (s : State) (rest : List Turn), s.agenda = .wait :: rest → s.busy = false →
    step s = .next { s with agenda := rest, replies := .reg s.status :: s.replies }) ∧
  (∀ s u : State,
    (s.agenda = [] ∧ u = s) ∨ (∃ rest, s.agenda = .engine :: rest ∧ u = { s with agenda := rest }) ∨
      (∃ rest, s.agenda = .wait :: rest ∧ u = s) →
    s.busy = true →
    (s.Inv → 4 ≤ s.ops.length ∧ ∃ t, step s = .next t ∧ t.fault = false) ∧
    ∀ (op : MicroOp) (u' : State), s.ops[s.k]? = some op → perform u op = some u' →
      (s.k + 1 < s.ops.length → step s = .next { u' with k := s.k + 1 }) ∧
      (s.k + 1 = s.ops.length →
        step s = .next
          { u' with
            w := freeWindow s.draws, pix := Config.freeByte (s.draws + 9), draws := s.draws + 10
            mode := .idle, stage := 0, k := 0, busy := false, done := true }))

/-- The sweep as a function, by coordinates (`42_plane_processor.md` section 1). The last two clauses, that the coordinate of
an offset is unique and that the cases exclude each other, are the spec's own inference. -/
def Obligations.SweepFunctionCases : Prop :=
  ∀ (fn : Filt) (g : Geometry) (inp out : Nat → Byte), g.valid →
    (∀ x y, g.interior x y →
      ∃ n, sample inp g.stride x y = some n ∧ sweep fn g inp out (g.off x y) = filterFn fn n) ∧
    (∀ x y, g.border x y → sweep fn g inp out (g.off x y) = inp (g.off x y)) ∧
    (∀ o, (¬ ∃ x y, g.inPlane x y ∧ g.off x y = o) → sweep fn g inp out o = out o) ∧
    (∀ x y x' y', x < g.stride → x' < g.stride → g.off x y = g.off x' y' → x = x' ∧ y = y') ∧
    (∀ x y, g.interior x y → ¬ g.border x y)

/-- With WIDTH < 3 or HEIGHT < 3 a sweep is no fault, its interior pass is empty, and it copies the plane
(`42_plane_processor.md` section 1; that every in-plane pixel is then a border pixel is the spec's own inference). -/
def Obligations.DegenerateSweepCopies : Prop :=
  (∀ (fn : Filt) (g : Geometry) (inp out : Nat → Byte), g.valid → (g.width < 3 ∨ g.height < 3) →
    (∀ x y, g.inPlane x y → g.border x y ∧ sweep fn g inp out (g.off x y) = inp (g.off x y)) ∧
    interiorOps fn g.width g.height = []) ∧
  (∀ s : State, s.geo.valid → s.geo.fits s.bufCap.toNat → (s.width.toNat < 3 ∨ s.height.toNat < 3) →
    ∀ i ∈ [Instr.sweepSharpen, .sweepSobel, .sweepMedian],
      ∃ t, exec i s = .next t ∧ t.busy = true ∧ t.fault = s.fault)

/-- The spec's derived properties of every sweep (`42_plane_processor.md` section 4): borders equal the input, interior
medians are selected from their windows, padding and all beyond the plane are unchanged, and the result depends on
in-plane input and out-of-plane output samples only. -/
def Obligations.SweepProperties : Prop :=
  ∀ (fn : Filt) (g : Geometry) (inp out : Nat → Byte), g.valid →
    (∀ x y, g.border x y → sweep fn g inp out (g.off x y) = inp (g.off x y)) ∧
    (∀ x y, g.interior x y →
      ∃ n, sample inp g.stride x y = some n ∧ sweep .median g inp out (g.off x y) ∈ n.toList) ∧
    (∀ x y, g.padding x y → sweep fn g inp out (g.off x y) = out (g.off x y)) ∧
    (∀ o, g.planeLen ≤ o → sweep fn g inp out o = out o) ∧
    (∀ inp' out' : Nat → Byte, (∀ x y, g.inPlane x y → inp (g.off x y) = inp' (g.off x y)) →
      (∀ o, (∀ x y, g.inPlane x y → g.off x y ≠ o) → out o = out' o) →
      ∀ o, sweep fn g inp out o = sweep fn g inp' out' o)

/-- The spec's derived order independence (`42_plane_processor.md` section 2): the micro-ops of a sweep in ANY order end
with the output slot holding the sweep of the input, the input slot and every other field unchanged. -/
def Obligations.SweepOrderIndependent : Prop :=
  ∀ (s : State) (fn : Filt) (l : List MicroOp), s.geo.valid → s.geo.fits s.bufCap.toNat →
    l.Perm (sweepOps fn s.geo.width s.geo.height) →
    ∃ t, performAll l s = some t ∧
      (∀ o, t.byte (otherSlot s.sel) o = sweep fn s.geo (s.byte s.sel) (s.byte (otherSlot s.sel)) o) ∧
      t = s.setBuf (otherSlot s.sel) (t.buf (otherSlot s.sel))

/-- A whole SWEEP (R139 to R141): the two faults; else after acceptance the engine is busy for exactly the length of its
list, STAGE 0 and SEL as it was; then the output slot holds the sweep of the input slot, W and PIX are unspecified, and
nothing else has changed. -/
def Obligations.SweepCommandComputesSweep : Prop :=
  ∀ (s : State) (i : Instr) (fn : Filt) (c : Word),
    (i, fn, c) ∈ [(Instr.sweepSharpen, Filt.sharpen, 0x00000003#32), (.sweepSobel, .sobel, 0x00000103#32),
      (.sweepMedian, .median, 0x00000203#32)] →
    encode i = c ∧
    (¬ s.geo.valid →
      exec i s = .next { s with done := false, fault := true, cause := 2, finfo := s.geo.faultMask }) ∧
    (s.geo.valid → ¬ s.geo.fits s.bufCap.toNat →
      exec i s = .next { s with done := false, fault := true, cause := 3, finfo := 0 }) ∧
    (s.geo.valid → s.geo.fits s.bufCap.toNat → s.agenda = [] →
      ∃ t u, exec i s = .next t ∧
        (∀ n, n < (sweepOps fn s.geo.width s.geo.height).length →
          ∃ v, steps n t = .next v ∧ v.busy = true ∧ v.done = false ∧ v.stage = 0 ∧ v.sel = s.sel) ∧
        steps (sweepOps fn s.geo.width s.geo.height).length t = .next u ∧
        (∀ o, u.byte (otherSlot s.sel) o = sweep fn s.geo (s.byte s.sel) (s.byte (otherSlot s.sel)) o) ∧
        u = { s.setBuf (otherSlot s.sel) (u.buf (otherSlot s.sel)) with
              w := u.w, pix := u.pix, draws := u.draws
              mode := .idle, stage := 0, k := 0, busy := false, done := true })

/-! ## The pipeline (`43_pipeline.md`) -/

/-- R152 at acceptance: RUN forces SEL to A and starts the engine when both checks pass. -/
def Obligations.RunStarts : Prop :=
  ∀ s : State, s.geo.valid → s.geo.fits s.bufCap.toNat →
    exec .run s =
      .next { s with done := false, sel := .a, mode := .run, stage := 0, k := 0, busy := true }

/-- R153: the micro-op list of RUN and its length. -/
def Obligations.RunOpsList : Prop :=
  ∀ wd ht : Nat,
    runOps wd ht =
      sweepOps .sharpen wd ht ++ [.swapOp] ++ sweepOps .sobel wd ht ++ [.swapOp] ++ sweepOps .median wd ht ++
        [.swapOp] ∧
    ∀ fn, (runOps wd ht).length = 3 * (sweepOps fn wd ht).length + 3

/-- A whole RUN (R152): the two faults; else it takes exactly len(run_ops) engine steps, of which the n-th falls in stage
n / (len(sweep_ops) + 1), with STAGE and SEL to match; then the buffers hold the pipeline of what they held, SEL is B, W
and PIX are unspecified, and nothing else has changed. -/
def Obligations.RunComputesPipeline : Prop :=
  ∀ s : State,
    encode .run = 0x00000005#32 ∧
    (¬ s.geo.valid →
      exec .run s = .next { s with done := false, fault := true, cause := 2, finfo := s.geo.faultMask }) ∧
    (s.geo.valid → ¬ s.geo.fits s.bufCap.toNat →
      exec .run s = .next { s with done := false, fault := true, cause := 3, finfo := 0 }) ∧
    (s.geo.valid → s.geo.fits s.bufCap.toNat → s.agenda = [] →
      ∃ t u, exec .run s = .next t ∧
        (∀ n, n < (runOps s.geo.width s.geo.height).length →
          ∃ v, steps n t = .next v ∧ v.busy = true ∧ v.done = false ∧
            v.stage.toNat = n / ((sweepOps .sharpen s.geo.width s.geo.height).length + 1) ∧
            v.sel = if v.stage = 1 then .b else .a) ∧
        steps (runOps s.geo.width s.geo.height).length t = .next u ∧
        (∀ o, u.byte .a o = (pipeline s.geo (s.byte .a) (s.byte .b)).1 o) ∧
        (∀ o, u.byte .b o = (pipeline s.geo (s.byte .a) (s.byte .b)).2 o) ∧
        u = { s with
              bufA := u.bufA, bufB := u.bufB, w := u.w, pix := u.pix, draws := u.draws
              sel := .b, mode := .idle, stage := 0, k := 0, busy := false, done := true })

/-- The flags of R152: STATUS reads 0x01, 0x31, 0x41 during the three stages and 0x12 at the end. -/
def Obligations.RunStatusByStage : Prop :=
  ∀ s t : State, s.geo.valid → s.geo.fits s.bufCap.toNat → s.agenda = [] → s.fault = false → s.werr = false →
    exec .run s = .next t →
    (∀ n v, steps n t = .next v →
      (n < (sweepOps .sharpen s.geo.width s.geo.height).length + 1 → v.status = 0x00000001#32) ∧
      ((sweepOps .sharpen s.geo.width s.geo.height).length + 1 ≤ n →
        n < 2 * ((sweepOps .sharpen s.geo.width s.geo.height).length + 1) → v.status = 0x00000031#32) ∧
      (2 * ((sweepOps .sharpen s.geo.width s.geo.height).length + 1) ≤ n →
        n < 3 * ((sweepOps .sharpen s.geo.width s.geo.height).length + 1) → v.status = 0x00000041#32) ∧
      (n = 3 * ((sweepOps .sharpen s.geo.width s.geo.height).length + 1) → v.status = 0x00000012#32))

/-- The spec's derived equivalence (`43_pipeline.md` section 2): RUN and the sequence of SWEEP and SWAP commands issued by
hand end in the same buffers, SEL, BUSY, DONE and FAULT. -/
def Obligations.RunEqualsHandIssuedSequence : Prop :=
  ∀ s : State, s.busy = false → s.fault = false → s.sel = .a → s.geo.valid → s.geo.fits s.bufCap.toNat →
    s.mode = .idle →
    ∃ m n u v,
      steps m
        { s with agenda := expandScript [.cmd .sweepSharpen, .wait, .cmd .swap, .cmd .sweepSobel, .wait, .cmd .swap,
                                         .cmd .sweepMedian, .wait, .cmd .swap] } = .next u ∧
      steps n { s with agenda := expandScript [.cmd .run, .wait] } = .next v ∧
      u.agenda = [] ∧ v.agenda = [] ∧
      (∀ slot o, u.byte slot o = v.byte slot o) ∧
      u.sel = v.sel ∧ u.busy = false ∧ v.busy = false ∧ u.done = true ∧ v.done = true ∧
      u.fault = false ∧ v.fault = false

/-- R157: the result plane is a function of the input plane and the geometry alone. -/
def Obligations.PipelineDeterministic : Prop :=
  ∀ (g : Geometry) (a a' b b' : Nat → Byte), g.valid →
    (∀ x y, g.inPlane x y → a (g.off x y) = a' (g.off x y)) →
    (∀ x y, g.inPlane x y → (pipeline g a b).2 (g.off x y) = (pipeline g a' b').2 (g.off x y)) ∧
    ((∀ o, (∀ x y, g.inPlane x y → g.off x y ≠ o) → b o = b' o) →
      ∀ o, (pipeline g a b).2 o = (pipeline g a' b').2 o)

/-- What the pipeline implies for the two buffers (the spec's derived list in `43_pipeline.md` section 1): A is stage 2's
output, the border passes unchanged, all outside the plane is kept in both, and a degenerate plane is copied. -/
def Obligations.PipelineBuffers : Prop :=
  ∀ (g : Geometry) (a b : Nat → Byte), g.valid →
    (∀ o, (pipeline g a b).1 o = sweep .sobel g (sweep .sharpen g a b) a o) ∧
    (∀ x y, g.border x y →
      (pipeline g a b).1 (g.off x y) = a (g.off x y) ∧ (pipeline g a b).2 (g.off x y) = a (g.off x y)) ∧
    (∀ o, (∀ x y, g.inPlane x y → g.off x y ≠ o) →
      (pipeline g a b).1 o = a o ∧ (pipeline g a b).2 o = b o) ∧
    ((g.width < 3 ∨ g.height < 3) → ∀ x y, g.inPlane x y →
      (pipeline g a b).1 (g.off x y) = a (g.off x y) ∧ (pipeline g a b).2 (g.off x y) = a (g.off x y))

/-- The end-to-end scenario, vector T40: a 10×10 plane of 127 keeps 127 on the border and at the four interior corners
only; the stages do not commute (R158). -/
def Obligations.FlatFieldScenario : Prop :=
  ∀ b : Nat → Byte, ∀ x y, x < 10 → y < 10 →
    ((pipeline ⟨10, 10, 10⟩ (fun _ => 127) b).1 (y * 10 + x) =
      if x = 0 ∨ x = 9 ∨ y = 0 ∨ y = 9 then 127 else 0) ∧
    ((pipeline ⟨10, 10, 10⟩ (fun _ => 127) b).2 (y * 10 + x) =
      if x = 0 ∨ x = 9 ∨ y = 0 ∨ y = 9 ∨ ((x = 1 ∨ x = 8) ∧ (y = 1 ∨ y = 8)) then 127 else 0)

/-! ## The filters (`41_filters.md`) -/

/-- R110 and R111: sharpen is the document's real-valued weighted sum, clamped and then rounded half up; the weights sum
to 1 and the diagonal samples do not matter. `floor` is `trunc` here, the argument being positive. -/
def Obligations.SharpenIsTheRealFormula : Prop :=
  (∀ n : Window, ((sharpen n).toNat : Int) =
    ⌊min (max ((List.zipWith (fun (k : ℚ) (v : Byte) => k * (v.toNat : ℚ))
      [0, -1/2, 0, -1/2, 3, -1/2, 0, -1/2, 0] n.toList).sum) 0) 255 + 1/2⌋) ∧
  ([0, -1/2, 0, -1/2, 3, -1/2, 0, -1/2, 0] : List ℚ).sum = 1 ∧
  (∀ (n : Window) (a b c d : Byte), sharpen { n with tl := a, tr := b, bl := c, br := d } = sharpen n)

/-- R114 and R115: the gradient sums are the two kernels' weighted sums, with their bounds; the centre has weight 0. -/
def Obligations.SobelGradients : Prop :=
  ∀ n : Window,
    sobelX n = (List.zipWith (fun (k : Int) (v : Byte) => k * (v.toNat : Int))
      [-1, 0, 1, -2, 0, 2, -1, 0, 1] n.toList).sum ∧
    sobelY n = (List.zipWith (fun (k : Int) (v : Byte) => k * (v.toNat : Int))
      [-1, -2, -1, 0, 0, 0, 1, 2, 1] n.toList).sum ∧
    -1020 ≤ sobelX n ∧ sobelX n ≤ 1020 ∧ -1020 ≤ sobelY n ∧ sobelY n ≤ 1020 ∧
    (sobelM n : Int) = sobelX n * sobelX n + sobelY n * sobelY n ∧ sobelM n ≤ 2080800 ∧ sobelM n < 2 ^ 21 ∧
    ∀ v : Byte, sobelM { n with mc := v } = sobelM n

/-- R116: sobel is the real square root of sx² + sy², clamped at 255 and then rounded half up. -/
def Obligations.SobelIsTheRealFormula : Prop :=
  ∀ n : Window, ((sobel n).toNat : Int) =
    ⌊min (Real.sqrt (((sobelX n) ^ 2 + (sobelY n) ^ 2 : Int) : ℝ)) 255 + 1/2⌋

/-- The spec's derived integer form (`41_filters.md` section 2): isqrt is the greatest root, q the unique nearest
integer to sqrt(m), the threshold of the clamp, and m is never odd. -/
def Obligations.RoundedRootIsNearest : Prop :=
  (∀ m k : Nat, k * k ≤ m ↔ k ≤ isqrt m) ∧
  roundedSqrt 0 = 0 ∧
  (∀ m q : Nat, 0 < m → (roundedSqrt m = q ↔ q * (q - 1) < m ∧ m ≤ q * (q + 1))) ∧
  (∀ n : Window, 64771 ≤ sobelM n → sobel n = 255) ∧
  (∀ n : Window, sobelM n ≤ 64770 → (sobel n).toNat = roundedSqrt (sobelM n)) ∧
  (∀ n : Window, sobelM n % 2 = 0)

/-- R119 and R120: the median is the fifth of the nine samples in whatever non-decreasing order, it is one of them, and
it is the only one with at most four below it and at most four above. -/
def Obligations.MedianIsTheFifthOrderStatistic : Prop :=
  ∀ n : Window,
    (∀ l : List Byte, l.Perm n.toList → l.Pairwise (fun a b => a.toNat ≤ b.toNat) → l[4]? = some (median n)) ∧
    ∀ v : Byte, v = median n ↔
      v ∈ n.toList ∧ n.toList.countP (fun a => a.toNat < v.toNat) ≤ 4 ∧
        n.toList.countP (fun a => v.toNat < a.toNat) ≤ 4

/-- The spec's derived symmetry (`41_filters.md` section 4): no filter changes when the window is flipped left to right,
top to bottom, or transposed. -/
def Obligations.FiltersAreSymmetric : Prop :=
  ∀ (fn : Filt) (n : Window),
    filterFn fn ⟨n.tr, n.tc, n.tl, n.mr, n.mc, n.ml, n.br, n.bc, n.bl⟩ = filterFn fn n ∧
    filterFn fn ⟨n.bl, n.bc, n.br, n.ml, n.mc, n.mr, n.tl, n.tc, n.tr⟩ = filterFn fn n ∧
    filterFn fn ⟨n.tl, n.ml, n.bl, n.tc, n.mc, n.bc, n.tr, n.mr, n.br⟩ = filterFn fn n

/-! ## The host's accesses (`10_state.md`, `20_memory.md`) -/

/-- The writes of R34: what each register write stores when the block is idle and unfaulted, that it is dropped with WERR
otherwise, and that writes to read-only registers and reserved indices are ignored at any time. -/
def Obligations.RegisterWrites : Prop :=
  ∀ (s : State) (v : Word) (rest : List Turn) (r : Nat), s.agenda = .host (.regWrite r v) :: rest →
    (r ∈ [1, 4, 5, 6, 7, 8, 9, 10, 11] → (s.busy = true ∨ s.fault = true) →
      step s = .next { s with agenda := rest, werr := true }) ∧
    (r ∈ [0, 2, 12, 13, 14, 15] ∨ 16 ≤ r → step s = .next { s with agenda := rest }) ∧
    (s.busy = false → s.fault = false →
      (r = 4 → step s = .next { s with agenda := rest, width := v }) ∧
      (r = 5 → step s = .next { s with agenda := rest, stride := v }) ∧
      (r = 6 → step s = .next { s with agenda := rest, height := v }) ∧
      (r = 7 → step s = .next { s with agenda := rest, x := v }) ∧
      (r = 8 → step s = .next { s with agenda := rest, y := v }) ∧
      (r = 9 → step s = .next { s with agenda := rest, w := { s.w with
        tl := v.extractLsb' 0 8, tc := v.extractLsb' 8 8, tr := v.extractLsb' 16 8, ml := v.extractLsb' 24 8 } }) ∧
      (r = 10 → step s = .next { s with agenda := rest, w := { s.w with
        mc := v.extractLsb' 0 8, mr := v.extractLsb' 8 8, bl := v.extractLsb' 16 8, bc := v.extractLsb' 24 8 } }) ∧
      (r = 11 → step s = .next { s with agenda := rest, w := { s.w with br := v.extractLsb' 0 8 } }))

/-- The reads of R33 and R34: a read changes nothing of the block; what each index answers; and, while BUSY = 1, WIN0 to
WIN2 and PIX answer a free word, whatever it is (the model's choice of all 32 bits is log 6). -/
def Obligations.RegisterReads : Prop :=
  ∀ (s : State) (rest : List Turn) (r : Nat), s.agenda = .host (.regRead r) :: rest →
    (s.busy = true → r ∈ [9, 10, 11, 12] →
      step s = .next
        { s with agenda := rest, draws := s.draws + 1, replies := .reg (Config.freeWord s.draws) :: s.replies }) ∧
    (s.busy = false ∨ r ∉ [9, 10, 11, 12] →
      ∃ v : Word, step s = .next { s with agenda := rest, replies := .reg v :: s.replies } ∧
        (r = 0 → v = 0x4E530100#32) ∧ (r = 1 → v = 0) ∧ (r = 2 → v = s.status) ∧ (r = 3 → v = 0) ∧
        (r = 4 → v = s.width) ∧ (r = 5 → v = s.stride) ∧ (r = 6 → v = s.height) ∧ (r = 7 → v = s.x) ∧
        (r = 8 → v = s.y) ∧ (r = 9 → v = (s.w.ml ++ s.w.tr ++ s.w.tc ++ s.w.tl).setWidth 32) ∧
        (r = 10 → v = (s.w.bc ++ s.w.bl ++ s.w.mr ++ s.w.mc).setWidth 32) ∧ (r = 11 → v.toNat = s.w.br.toNat) ∧
        (r = 12 → v.toNat = s.pix.toNat) ∧ (r = 13 → v.toNat = s.cause.toNat) ∧ (r = 14 → v = s.finfo) ∧
        (r = 15 → v = s.bufCap) ∧ (16 ≤ r → v = 0))

/-- The STATUS word (R28): BUSY, DONE, FAULT, WERR, SEL, STAGE in bits 0, 1, 2, 3, 4, 6:5 and zero above. -/
def Obligations.StatusWordBits : Prop :=
  ∀ s : State,
    s.status.getLsbD 0 = s.busy ∧ s.status.getLsbD 1 = s.done ∧ s.status.getLsbD 2 = s.fault ∧
    s.status.getLsbD 3 = s.werr ∧ s.status.getLsbD 4 = decide (s.sel = .b) ∧
    s.status.extractLsb' 5 2 = s.stage ∧ ∀ j, 7 ≤ j → s.status.getLsbD j = false

/-- Host plane accesses, by absolute slot (`20_memory.md` section 4). That a read while BUSY = 1 answers the free byte of the
next draw, whatever it is, is the model's choice (log 1, 6) where the spec says unspecified. -/
def Obligations.PlaneAccesses : Prop :=
  ∀ (s : State) (rest : List Turn) (slot : Slot) (off : Nat) (v : Byte),
    (s.agenda = .host (.planeWrite slot off v) :: rest →
      (s.bufCap.toNat ≤ off ∨ s.busy = true ∨ s.fault = true →
        step s = .next { s with agenda := rest, werr := true }) ∧
      (off < s.bufCap.toNat → s.busy = false → s.fault = false →
        ∃ t, step s = .next t ∧ t.byte slot off = v ∧ (∀ o, o ≠ off → t.byte slot o = s.byte slot o) ∧
          t = { s with agenda := rest }.setBuf slot (t.buf slot))) ∧
    (s.agenda = .host (.planeRead slot off) :: rest →
      (s.bufCap.toNat ≤ off →
        step s = .next { s with agenda := rest, werr := true, replies := .sample 0 :: s.replies }) ∧
      (off < s.bufCap.toNat → s.busy = true →
        step s = .next
          { s with agenda := rest, draws := s.draws + 1
                   replies := .sample (Config.freeByte s.draws) :: s.replies }) ∧
      (off < s.bufCap.toNat → s.busy = false →
        step s = .next { s with agenda := rest, replies := .sample (s.byte slot off) :: s.replies }))

/-- A write to CTRL (`10_state.md` section 7, `70_reset_and_hazards.md` section 1). Bit 0 = 0 does nothing; bit 0 = 1 resets
whatever BUSY and FAULT are: control state 0, data state kept if the engine was idle and unspecified if it was busy. That
unspecified data are empty lists and free values of the next twelve draws is the model's choice (log 1, 4). CTRL reads
as 0. -/
def Obligations.ControlRegisterSoftReset : Prop :=
  ∀ (s : State) (rest : List Turn) (v : Word),
    (s.agenda = .host (.regWrite 3 v) :: rest →
      (v.getLsbD 0 = false → step s = .next { s with agenda := rest }) ∧
      (v.getLsbD 0 = true → s.busy = false → step s = .next
        { s with agenda := rest
                 width := 0, stride := 0, height := 0, x := 0, y := 0, sel := .a, mode := .idle, stage := 0, k := 0
                 busy := false, done := false, fault := false, werr := false, cause := 0, finfo := 0 }) ∧
      (v.getLsbD 0 = true → s.busy = true → step s = .next
        { s with agenda := rest, bufA := ⟨s.draws, []⟩, bufB := ⟨s.draws + 1, []⟩
                 w := freeWindow (s.draws + 2), pix := Config.freeByte (s.draws + 11), draws := s.draws + 12
                 width := 0, stride := 0, height := 0, x := 0, y := 0, sel := .a, mode := .idle, stage := 0, k := 0
                 busy := false, done := false, fault := false, werr := false, cause := 0, finfo := 0 })) ∧
    (s.agenda = .host (.regRead 3) :: rest →
      step s = .next { s with agenda := rest, replies := .reg 0 :: s.replies })

/-- A hard reset at any time clears the control state and draws both buffers, W and PIX afresh (`70_reset_and_hazards.md`
section 1; that unspecified data are empty lists and free values of the next twelve draws is the model's choice, log 1,
4, 5); after it the engine has no enabled step and a legal NOP is accepted. -/
def Obligations.HardResetClears : Prop :=
  ∀ (s : State) (rest : List Turn), s.agenda = .hardReset :: rest →
    ∃ t, step s = .next t ∧
      t.width = 0 ∧ t.stride = 0 ∧ t.height = 0 ∧ t.x = 0 ∧ t.y = 0 ∧ t.sel = .a ∧ t.mode = .idle ∧ t.stage = 0 ∧
      t.k = 0 ∧ t.busy = false ∧ t.done = false ∧ t.fault = false ∧ t.werr = false ∧ t.cause = 0 ∧ t.finfo = 0 ∧
      t.bufA = ⟨s.draws, []⟩ ∧ t.bufB = ⟨s.draws + 1, []⟩ ∧
      t.w = freeWindow (s.draws + 2) ∧ t.pix = Config.freeByte (s.draws + 11) ∧ t.draws = s.draws + 12 ∧
      t.bufCap = s.bufCap ∧ t.agenda = rest ∧ t.replies = s.replies ∧
      step { t with agenda := [] } = .next { t with agenda := [] } ∧
      step (t.withFetchWord 32 0) = .next { t with done := true }

/-- `setwin` of R89: the three writes leave the nine values in W, in the lanes of R33. -/
def Obligations.SetwinLoadsTheWindow : Prop :=
  ∀ (s : State) (v0 v1 v2 v3 v4 v5 v6 v7 v8 : Byte), s.busy = false → s.fault = false →
    steps 3 { s with agenda := expandLine (.setwin v0 v1 v2 v3 v4 v5 v6 v7 v8) } =
      .next { s with agenda := [], w := ⟨v0, v1, v2, v3, v4, v5, v6, v7, v8⟩ }

/-- The transfer protocol of R66: loading a plane puts byte i of the resource at offset i of slot A and the geometry in
its registers; too few bytes issue nothing; storing a plane answers the samples of slot B in order. -/
def Obligations.LoadAndStorePlane : Prop :=
  (∀ (s : State) (bytes : List Byte) (w h st : Word) (turns : List Turn), s.busy = false → s.fault = false →
    st.toNat * h.toNat ≤ s.bufCap.toNat → loadPlane bytes w st h = some turns →
    ∃ u, steps turns.length { s with agenda := turns } = .next u ∧ u.agenda = [] ∧
      (∀ i, i < st.toNat * h.toNat → some (u.byte .a i) = bytes[i]?) ∧
      (∀ i, st.toNat * h.toNat ≤ i → u.byte .a i = s.byte .a i) ∧
      u = { s with agenda := [], bufA := u.bufA, width := w, stride := st, height := h }) ∧
  (∀ (bytes : List Byte) (w h st : Word), bytes.length < st.toNat * h.toNat → loadPlane bytes w st h = none) ∧
  (∀ (s : State) (st h : Word), s.busy = false → st.toNat * h.toNat ≤ s.bufCap.toNat →
    steps (st.toNat * h.toNat) { s with agenda := storePlane st h } =
      .next { s with agenda := []
                     replies := ((List.range (st.toNat * h.toNat)).map fun i => Reply.sample (s.byte .b i)).reverse ++
                       s.replies })

/-! ## The whole machine -/

/-- No command changes the geometry, X, Y, WERR or BUF_CAP (R22, R23), only SWAP and RUN change SEL (R26), no command
writes a buffer in its acceptance step, and an engine step changes none of the geometry either. -/
def Obligations.CommandsKeepGeometry : Prop :=
  (∀ (i : Instr) (s t : State), exec i s = .next t →
    t.width = s.width ∧ t.stride = s.stride ∧ t.height = s.height ∧ t.x = s.x ∧ t.y = s.y ∧ t.werr = s.werr ∧
    t.bufCap = s.bufCap ∧ t.bufA = s.bufA ∧ t.bufB = s.bufB ∧ t.agenda = s.agenda ∧ t.replies = s.replies ∧
    (t.sel ≠ s.sel → i = .swap ∨ i = .run)) ∧
  (∀ s t : State, engineStep s = .next t →
    t.width = s.width ∧ t.stride = s.stride ∧ t.height = s.height ∧ t.x = s.x ∧ t.y = s.y ∧ t.werr = s.werr ∧
    t.bufCap = s.bufCap ∧ t.fault = s.fault ∧ t.cause = s.cause ∧ t.finfo = s.finfo ∧
    (s.mode ≠ .run → t.sel = s.sel ∧ t.buf s.sel = s.buf s.sel))

/-- While BUSY = 1 a host access that is no reset changes nothing of the block but WERR (R34, R57), and the engine's next
step does to the block the same with it as without it. -/
def Obligations.RunningCommandIsIsolated : Prop :=
  ∀ (s t : State) (act : HostAct) (rest : List Turn), s.busy = true → s.agenda = .host act :: rest →
    ¬ s.nextIsReset → step s = .next t →
    t = { s with werr := t.werr, draws := t.draws, agenda := rest, replies := t.replies } ∧
    ∀ u v, engineStep s = .next u → engineStep t = .next v →
      v.bufA = u.bufA ∧ v.bufB = u.bufB ∧ v.sel = u.sel ∧ v.mode = u.mode ∧ v.stage = u.stage ∧ v.k = u.k ∧
      v.busy = u.busy ∧ v.done = u.done

/-- The state right after reset satisfies the invariant, and its control state is that of R39. The value of BUF_CAP is the
model's free constant (log 2), of which only the range of R4 is used. -/
def Obligations.InvariantHoldsAtReset : Prop :=
  State.reset.Inv ∧ State.reset.status = 0 ∧ State.reset.width = 0 ∧ State.reset.stride = 0 ∧
  State.reset.height = 0 ∧ State.reset.x = 0 ∧ State.reset.y = 0 ∧ State.reset.cause = 0 ∧ State.reset.finfo = 0

/-- Every step from every state keeps the invariant. -/
def Obligations.InvariantIsKept : Prop :=
  ∀ s t : State, s.Inv → step s = .next t → t.Inv

/-- No step stops the machine in a state that Inv describes: no engine step can fault (R56, R136) and no command is
refused. -/
def Obligations.NoStepStops : Prop :=
  ∀ s : State, s.Inv → ∃ t, step s = .next t

/-- The derived remark of R27 that K cannot wrap: K and the length of OPS fit in 35 bits in every state of Inv. -/
def Obligations.SequencerFitsItsWidth : Prop :=
  ∀ s : State, s.Inv → s.k < 2 ^ 35 ∧ s.ops.length < 2 ^ 35

/-- R204: a running command ends after exactly the engine steps that are left, however many host accesses interleave, and
with what it would have done without them; and a host that waits (R89) reaches the end of its wait with a STATUS read
that shows BUSY = 0. The agenda, and a wait that is one turn, are the model's choice (log 3). -/
def Obligations.RunningCommandEnds : Prop :=
  (∀ s : State, s.Inv → s.busy = true → s.agenda = [] →
    (∀ n, n < s.ops.length - s.k → ∃ v, steps n s = .next v ∧ v.busy = true) ∧
    ∃ u, steps (s.ops.length - s.k) s = .next u ∧ u.busy = false ∧ u.done = true ∧ u.fault = false) ∧
  (∀ (s : State) (turns rest : List Turn), s.Inv → s.busy = true → s.agenda = turns ++ rest →
    (∀ t ∈ turns, t = .engine ∨ ∃ act, t = .host act ∧ ∀ v : Word, act = .regWrite 3 v → v.getLsbD 0 = false) →
    (turns.count .engine < s.ops.length - s.k →
      ∃ v, steps turns.length s = .next v ∧ v.agenda = rest ∧ v.busy = true ∧ v.done = false ∧
        v.k = s.k + turns.count .engine) ∧
    (turns.count .engine = s.ops.length - s.k → turns.getLast? = some .engine →
      ∃ u w, steps turns.length s = .next u ∧ steps (s.ops.length - s.k) { s with agenda := [] } = .next w ∧
        u.agenda = rest ∧ u.busy = false ∧ u.done = true ∧ u.fault = false ∧
        u.bufA = w.bufA ∧ u.bufB = w.bufB ∧ u.sel = w.sel)) ∧
  (∀ (s : State) (rest : List Turn), s.Inv → s.agenda = .wait :: rest →
    ∃ n u, steps n s = .next u ∧ u.agenda = rest ∧ u.busy = false ∧
      u.replies = .reg u.status :: s.replies ∧ u.status.getLsbD 0 = false)

/-- R206: a run that ended, ended well or badly by what STATUS reads, and never both; a state with BUSY = 1 is never
final. -/
def Obligations.RunEndsWellOrBadly : Prop :=
  ∀ s : State, s.Inv →
    (s.endedWell = true ↔ s.busy = false ∧ s.fault = false ∧ s.done = true) ∧
    (s.endedBadly = true ↔ s.fault = true) ∧ ¬ (s.endedWell = true ∧ s.endedBadly = true) ∧
    (s.busy = true → s.endedWell = false ∧ s.endedBadly = false)
end

