-- ==== Sys2Proof/Laws/Bits.lean ====
section
/-!
SUPPORT. The bit layouts: packing and reading the fields of a command word are inverse, and so are the window lanes.
-/

namespace Sys2Proof

theorem packFields_fieldsOf (c : Word) : packFields (fieldsOf c) = c := by
  apply BitVec.eq_of_getLsbD_eq
  intro i hi
  simp only [packFields, fieldsOf, BitVec.getLsbD_setWidth, BitVec.getLsbD_append, BitVec.getLsbD_extractLsb']
  by_cases h1 : i < 8
  · simp [h1, hi]
  · by_cases h2 : i - 8 < 2
    · have : 8 + (i - 8) = i := by omega
      simp [h1, h2, hi, this]
    · have : 10 + (i - 8 - 2) = i := by omega
      have h3 : i - 8 - 2 < 22 := by omega
      simp [h1, h2, h3, hi, this]

theorem fieldsOf_packFields (f : Fields) : fieldsOf (packFields f) = f := by
  obtain ⟨z, fn, o⟩ := f
  simp only [fieldsOf, packFields, Fields.mk.injEq]
  refine ⟨?_, ?_, ?_⟩ <;> apply BitVec.eq_of_getLsbD_eq <;> intro i hi <;>
    simp only [BitVec.getLsbD_extractLsb', BitVec.getLsbD_setWidth, BitVec.getLsbD_append]
  · have h1 : ¬ 10 + i < 8 := by omega
    have h2 : ¬ 10 + i - 8 < 2 := by omega
    have h3 : 10 + i - 8 - 2 = i := by omega
    have h4 : 10 + i < 32 := by omega
    simp [hi, h1, h2, h3, h4]
  · have h1 : ¬ 8 + i < 8 := by omega
    have h2 : 8 + i - 8 = i := by omega
    have h4 : 8 + i < 32 := by omega
    simp [hi, h1, h2, h4]
  · have h4 : i < 32 := by omega
    simp [hi, h4]

namespace Machine

/-- A word written to WIN0 is read back from it, and WIN1 and WIN2 keep their values (R33, R52). -/
theorem Window.win0_setWin0 (n : Window) (v : Word) : (n.setWin0 v).win0 = v := by
  apply BitVec.eq_of_getLsbD_eq
  intro i hi
  simp only [Window.win0, Window.setWin0, BitVec.getLsbD_setWidth, BitVec.getLsbD_append,
    BitVec.getLsbD_extractLsb']
  by_cases h1 : i < 8
  · simp [h1, hi]
  · by_cases h2 : i - 8 < 8
    · have : 8 + (i - 8) = i := by omega
      simp [h1, h2, hi, this]
    · by_cases h3 : i - 8 - 8 < 8
      · have : 16 + (i - 8 - 8) = i := by omega
        simp [h1, h2, h3, hi, this]
      · have : 24 + (i - 8 - 8 - 8) = i := by omega
        have h4 : i - 8 - 8 - 8 < 8 := by omega
        simp [h1, h2, h3, h4, hi, this]

@[simp] theorem Window.win1_setWin0 (n : Window) (v : Word) : (n.setWin0 v).win1 = n.win1 := rfl
@[simp] theorem Window.win2_setWin0 (n : Window) (v : Word) : (n.setWin0 v).win2 = n.win2 := rfl

/-- The same for WIN1. -/
theorem Window.win1_setWin1 (n : Window) (v : Word) : (n.setWin1 v).win1 = v :=
  Window.win0_setWin0 ⟨n.mc, n.mr, n.bl, n.bc, n.mc, n.mr, n.bl, n.bc, n.br⟩ v

@[simp] theorem Window.win0_setWin1 (n : Window) (v : Word) : (n.setWin1 v).win0 = n.win0 := rfl
@[simp] theorem Window.win2_setWin1 (n : Window) (v : Word) : (n.setWin1 v).win2 = n.win2 := rfl

@[simp] theorem Window.win0_setWin2 (n : Window) (v : Word) : (n.setWin2 v).win0 = n.win0 := rfl
@[simp] theorem Window.win1_setWin2 (n : Window) (v : Word) : (n.setWin2 v).win1 = n.win1 := rfl

end Machine

end Sys2Proof
end

