-- ==== Sys2Proof/Laws/State.lean ====
section
/-!
SUPPORT. What each named update does to each field of State, one lemma per field and update, so that no later proof
unfolds a record update.
-/

namespace Sys2Proof.Machine

section
variable (s : State)

@[simp] theorem accept_bufA : s.accept.bufA = s.bufA := rfl
@[simp] theorem accept_bufB : s.accept.bufB = s.bufB := rfl
@[simp] theorem accept_width : s.accept.width = s.width := rfl
@[simp] theorem accept_stride : s.accept.stride = s.stride := rfl
@[simp] theorem accept_height : s.accept.height = s.height := rfl
@[simp] theorem accept_x : s.accept.x = s.x := rfl
@[simp] theorem accept_y : s.accept.y = s.y := rfl
@[simp] theorem accept_w : s.accept.w = s.w := rfl
@[simp] theorem accept_pix : s.accept.pix = s.pix := rfl
@[simp] theorem accept_sel : s.accept.sel = s.sel := rfl
@[simp] theorem accept_mode : s.accept.mode = s.mode := rfl
@[simp] theorem accept_stage : s.accept.stage = s.stage := rfl
@[simp] theorem accept_k : s.accept.k = s.k := rfl
@[simp] theorem accept_busy : s.accept.busy = s.busy := rfl
@[simp] theorem accept_done : s.accept.done = false := rfl
@[simp] theorem accept_fault : s.accept.fault = s.fault := rfl
@[simp] theorem accept_werr : s.accept.werr = s.werr := rfl
@[simp] theorem accept_cause : s.accept.cause = s.cause := rfl
@[simp] theorem accept_finfo : s.accept.finfo = s.finfo := rfl
@[simp] theorem accept_bufCap : s.accept.bufCap = s.bufCap := rfl
@[simp] theorem accept_draws : s.accept.draws = s.draws := rfl
@[simp] theorem accept_agenda : s.accept.agenda = s.agenda := rfl
@[simp] theorem accept_replies : s.accept.replies = s.replies := rfl

@[simp] theorem finish_bufA : s.finish.bufA = s.bufA := rfl
@[simp] theorem finish_bufB : s.finish.bufB = s.bufB := rfl
@[simp] theorem finish_width : s.finish.width = s.width := rfl
@[simp] theorem finish_stride : s.finish.stride = s.stride := rfl
@[simp] theorem finish_height : s.finish.height = s.height := rfl
@[simp] theorem finish_x : s.finish.x = s.x := rfl
@[simp] theorem finish_y : s.finish.y = s.y := rfl
@[simp] theorem finish_w : s.finish.w = s.w := rfl
@[simp] theorem finish_pix : s.finish.pix = s.pix := rfl
@[simp] theorem finish_sel : s.finish.sel = s.sel := rfl
@[simp] theorem finish_mode : s.finish.mode = s.mode := rfl
@[simp] theorem finish_stage : s.finish.stage = s.stage := rfl
@[simp] theorem finish_k : s.finish.k = s.k := rfl
@[simp] theorem finish_busy : s.finish.busy = s.busy := rfl
@[simp] theorem finish_done : s.finish.done = true := rfl
@[simp] theorem finish_fault : s.finish.fault = s.fault := rfl
@[simp] theorem finish_werr : s.finish.werr = s.werr := rfl
@[simp] theorem finish_cause : s.finish.cause = s.cause := rfl
@[simp] theorem finish_finfo : s.finish.finfo = s.finfo := rfl
@[simp] theorem finish_bufCap : s.finish.bufCap = s.bufCap := rfl
@[simp] theorem finish_draws : s.finish.draws = s.draws := rfl
@[simp] theorem finish_agenda : s.finish.agenda = s.agenda := rfl
@[simp] theorem finish_replies : s.finish.replies = s.replies := rfl

@[simp] theorem setWerr_bufA : s.setWerr.bufA = s.bufA := rfl
@[simp] theorem setWerr_bufB : s.setWerr.bufB = s.bufB := rfl
@[simp] theorem setWerr_width : s.setWerr.width = s.width := rfl
@[simp] theorem setWerr_stride : s.setWerr.stride = s.stride := rfl
@[simp] theorem setWerr_height : s.setWerr.height = s.height := rfl
@[simp] theorem setWerr_x : s.setWerr.x = s.x := rfl
@[simp] theorem setWerr_y : s.setWerr.y = s.y := rfl
@[simp] theorem setWerr_w : s.setWerr.w = s.w := rfl
@[simp] theorem setWerr_pix : s.setWerr.pix = s.pix := rfl
@[simp] theorem setWerr_sel : s.setWerr.sel = s.sel := rfl
@[simp] theorem setWerr_mode : s.setWerr.mode = s.mode := rfl
@[simp] theorem setWerr_stage : s.setWerr.stage = s.stage := rfl
@[simp] theorem setWerr_k : s.setWerr.k = s.k := rfl
@[simp] theorem setWerr_busy : s.setWerr.busy = s.busy := rfl
@[simp] theorem setWerr_done : s.setWerr.done = s.done := rfl
@[simp] theorem setWerr_fault : s.setWerr.fault = s.fault := rfl
@[simp] theorem setWerr_werr : s.setWerr.werr = true := rfl
@[simp] theorem setWerr_cause : s.setWerr.cause = s.cause := rfl
@[simp] theorem setWerr_finfo : s.setWerr.finfo = s.finfo := rfl
@[simp] theorem setWerr_bufCap : s.setWerr.bufCap = s.bufCap := rfl
@[simp] theorem setWerr_draws : s.setWerr.draws = s.draws := rfl
@[simp] theorem setWerr_agenda : s.setWerr.agenda = s.agenda := rfl
@[simp] theorem setWerr_replies : s.setWerr.replies = s.replies := rfl

@[simp] theorem raise_bufA (t : Trap) : (raise t s).bufA = s.bufA := rfl
@[simp] theorem raise_bufB (t : Trap) : (raise t s).bufB = s.bufB := rfl
@[simp] theorem raise_width (t : Trap) : (raise t s).width = s.width := rfl
@[simp] theorem raise_stride (t : Trap) : (raise t s).stride = s.stride := rfl
@[simp] theorem raise_height (t : Trap) : (raise t s).height = s.height := rfl
@[simp] theorem raise_x (t : Trap) : (raise t s).x = s.x := rfl
@[simp] theorem raise_y (t : Trap) : (raise t s).y = s.y := rfl
@[simp] theorem raise_w (t : Trap) : (raise t s).w = s.w := rfl
@[simp] theorem raise_pix (t : Trap) : (raise t s).pix = s.pix := rfl
@[simp] theorem raise_sel (t : Trap) : (raise t s).sel = s.sel := rfl
@[simp] theorem raise_mode (t : Trap) : (raise t s).mode = s.mode := rfl
@[simp] theorem raise_stage (t : Trap) : (raise t s).stage = s.stage := rfl
@[simp] theorem raise_k (t : Trap) : (raise t s).k = s.k := rfl
@[simp] theorem raise_busy (t : Trap) : (raise t s).busy = s.busy := rfl
@[simp] theorem raise_done (t : Trap) : (raise t s).done = s.done := rfl
@[simp] theorem raise_fault (t : Trap) : (raise t s).fault = true := rfl
@[simp] theorem raise_werr (t : Trap) : (raise t s).werr = s.werr := rfl
@[simp] theorem raise_cause (t : Trap) : (raise t s).cause = t.code := rfl
@[simp] theorem raise_finfo (t : Trap) : (raise t s).finfo = t.info := rfl
@[simp] theorem raise_bufCap (t : Trap) : (raise t s).bufCap = s.bufCap := rfl
@[simp] theorem raise_draws (t : Trap) : (raise t s).draws = s.draws := rfl
@[simp] theorem raise_agenda (t : Trap) : (raise t s).agenda = s.agenda := rfl
@[simp] theorem raise_replies (t : Trap) : (raise t s).replies = s.replies := rfl

@[simp] theorem answer_bufA (r : Reply) : (s.answer r).bufA = s.bufA := rfl
@[simp] theorem answer_bufB (r : Reply) : (s.answer r).bufB = s.bufB := rfl
@[simp] theorem answer_width (r : Reply) : (s.answer r).width = s.width := rfl
@[simp] theorem answer_stride (r : Reply) : (s.answer r).stride = s.stride := rfl
@[simp] theorem answer_height (r : Reply) : (s.answer r).height = s.height := rfl
@[simp] theorem answer_x (r : Reply) : (s.answer r).x = s.x := rfl
@[simp] theorem answer_y (r : Reply) : (s.answer r).y = s.y := rfl
@[simp] theorem answer_w (r : Reply) : (s.answer r).w = s.w := rfl
@[simp] theorem answer_pix (r : Reply) : (s.answer r).pix = s.pix := rfl
@[simp] theorem answer_sel (r : Reply) : (s.answer r).sel = s.sel := rfl
@[simp] theorem answer_mode (r : Reply) : (s.answer r).mode = s.mode := rfl
@[simp] theorem answer_stage (r : Reply) : (s.answer r).stage = s.stage := rfl
@[simp] theorem answer_k (r : Reply) : (s.answer r).k = s.k := rfl
@[simp] theorem answer_busy (r : Reply) : (s.answer r).busy = s.busy := rfl
@[simp] theorem answer_done (r : Reply) : (s.answer r).done = s.done := rfl
@[simp] theorem answer_fault (r : Reply) : (s.answer r).fault = s.fault := rfl
@[simp] theorem answer_werr (r : Reply) : (s.answer r).werr = s.werr := rfl
@[simp] theorem answer_cause (r : Reply) : (s.answer r).cause = s.cause := rfl
@[simp] theorem answer_finfo (r : Reply) : (s.answer r).finfo = s.finfo := rfl
@[simp] theorem answer_bufCap (r : Reply) : (s.answer r).bufCap = s.bufCap := rfl
@[simp] theorem answer_draws (r : Reply) : (s.answer r).draws = s.draws := rfl
@[simp] theorem answer_agenda (r : Reply) : (s.answer r).agenda = s.agenda := rfl
@[simp] theorem answer_replies (r : Reply) : (s.answer r).replies = r :: s.replies := rfl

@[simp] theorem drawRegs_bufA : s.drawRegs.bufA = s.bufA := rfl
@[simp] theorem drawRegs_bufB : s.drawRegs.bufB = s.bufB := rfl
@[simp] theorem drawRegs_width : s.drawRegs.width = s.width := rfl
@[simp] theorem drawRegs_stride : s.drawRegs.stride = s.stride := rfl
@[simp] theorem drawRegs_height : s.drawRegs.height = s.height := rfl
@[simp] theorem drawRegs_x : s.drawRegs.x = s.x := rfl
@[simp] theorem drawRegs_y : s.drawRegs.y = s.y := rfl
@[simp] theorem drawRegs_w : s.drawRegs.w = freeWindow s.draws := rfl
@[simp] theorem drawRegs_pix : s.drawRegs.pix = Config.freeByte (s.draws + 9) := rfl
@[simp] theorem drawRegs_sel : s.drawRegs.sel = s.sel := rfl
@[simp] theorem drawRegs_mode : s.drawRegs.mode = s.mode := rfl
@[simp] theorem drawRegs_stage : s.drawRegs.stage = s.stage := rfl
@[simp] theorem drawRegs_k : s.drawRegs.k = s.k := rfl
@[simp] theorem drawRegs_busy : s.drawRegs.busy = s.busy := rfl
@[simp] theorem drawRegs_done : s.drawRegs.done = s.done := rfl
@[simp] theorem drawRegs_fault : s.drawRegs.fault = s.fault := rfl
@[simp] theorem drawRegs_werr : s.drawRegs.werr = s.werr := rfl
@[simp] theorem drawRegs_cause : s.drawRegs.cause = s.cause := rfl
@[simp] theorem drawRegs_finfo : s.drawRegs.finfo = s.finfo := rfl
@[simp] theorem drawRegs_bufCap : s.drawRegs.bufCap = s.bufCap := rfl
@[simp] theorem drawRegs_draws : s.drawRegs.draws = s.draws + 10 := rfl
@[simp] theorem drawRegs_agenda : s.drawRegs.agenda = s.agenda := rfl
@[simp] theorem drawRegs_replies : s.drawRegs.replies = s.replies := rfl

@[simp] theorem drawBufs_bufA : s.drawBufs.bufA = ⟨s.draws, []⟩ := rfl
@[simp] theorem drawBufs_bufB : s.drawBufs.bufB = ⟨s.draws + 1, []⟩ := rfl
@[simp] theorem drawBufs_width : s.drawBufs.width = s.width := rfl
@[simp] theorem drawBufs_stride : s.drawBufs.stride = s.stride := rfl
@[simp] theorem drawBufs_height : s.drawBufs.height = s.height := rfl
@[simp] theorem drawBufs_x : s.drawBufs.x = s.x := rfl
@[simp] theorem drawBufs_y : s.drawBufs.y = s.y := rfl
@[simp] theorem drawBufs_w : s.drawBufs.w = s.w := rfl
@[simp] theorem drawBufs_pix : s.drawBufs.pix = s.pix := rfl
@[simp] theorem drawBufs_sel : s.drawBufs.sel = s.sel := rfl
@[simp] theorem drawBufs_mode : s.drawBufs.mode = s.mode := rfl
@[simp] theorem drawBufs_stage : s.drawBufs.stage = s.stage := rfl
@[simp] theorem drawBufs_k : s.drawBufs.k = s.k := rfl
@[simp] theorem drawBufs_busy : s.drawBufs.busy = s.busy := rfl
@[simp] theorem drawBufs_done : s.drawBufs.done = s.done := rfl
@[simp] theorem drawBufs_fault : s.drawBufs.fault = s.fault := rfl
@[simp] theorem drawBufs_werr : s.drawBufs.werr = s.werr := rfl
@[simp] theorem drawBufs_cause : s.drawBufs.cause = s.cause := rfl
@[simp] theorem drawBufs_finfo : s.drawBufs.finfo = s.finfo := rfl
@[simp] theorem drawBufs_bufCap : s.drawBufs.bufCap = s.bufCap := rfl
@[simp] theorem drawBufs_draws : s.drawBufs.draws = s.draws + 2 := rfl
@[simp] theorem drawBufs_agenda : s.drawBufs.agenda = s.agenda := rfl
@[simp] theorem drawBufs_replies : s.drawBufs.replies = s.replies := rfl

@[simp] theorem clearControl_bufA : s.clearControl.bufA = s.bufA := rfl
@[simp] theorem clearControl_bufB : s.clearControl.bufB = s.bufB := rfl
@[simp] theorem clearControl_width : s.clearControl.width = 0 := rfl
@[simp] theorem clearControl_stride : s.clearControl.stride = 0 := rfl
@[simp] theorem clearControl_height : s.clearControl.height = 0 := rfl
@[simp] theorem clearControl_x : s.clearControl.x = 0 := rfl
@[simp] theorem clearControl_y : s.clearControl.y = 0 := rfl
@[simp] theorem clearControl_w : s.clearControl.w = s.w := rfl
@[simp] theorem clearControl_pix : s.clearControl.pix = s.pix := rfl
@[simp] theorem clearControl_sel : s.clearControl.sel = .a := rfl
@[simp] theorem clearControl_mode : s.clearControl.mode = .idle := rfl
@[simp] theorem clearControl_stage : s.clearControl.stage = 0 := rfl
@[simp] theorem clearControl_k : s.clearControl.k = 0 := rfl
@[simp] theorem clearControl_busy : s.clearControl.busy = false := rfl
@[simp] theorem clearControl_done : s.clearControl.done = false := rfl
@[simp] theorem clearControl_fault : s.clearControl.fault = false := rfl
@[simp] theorem clearControl_werr : s.clearControl.werr = false := rfl
@[simp] theorem clearControl_cause : s.clearControl.cause = 0 := rfl
@[simp] theorem clearControl_finfo : s.clearControl.finfo = 0 := rfl
@[simp] theorem clearControl_bufCap : s.clearControl.bufCap = s.bufCap := rfl
@[simp] theorem clearControl_draws : s.clearControl.draws = s.draws := rfl
@[simp] theorem clearControl_agenda : s.clearControl.agenda = s.agenda := rfl
@[simp] theorem clearControl_replies : s.clearControl.replies = s.replies := rfl

@[simp] theorem startSequence_bufA (m : Mode) : (startSequence m s).bufA = s.bufA := rfl
@[simp] theorem startSequence_bufB (m : Mode) : (startSequence m s).bufB = s.bufB := rfl
@[simp] theorem startSequence_width (m : Mode) : (startSequence m s).width = s.width := rfl
@[simp] theorem startSequence_stride (m : Mode) : (startSequence m s).stride = s.stride := rfl
@[simp] theorem startSequence_height (m : Mode) : (startSequence m s).height = s.height := rfl
@[simp] theorem startSequence_x (m : Mode) : (startSequence m s).x = s.x := rfl
@[simp] theorem startSequence_y (m : Mode) : (startSequence m s).y = s.y := rfl
@[simp] theorem startSequence_w (m : Mode) : (startSequence m s).w = s.w := rfl
@[simp] theorem startSequence_pix (m : Mode) : (startSequence m s).pix = s.pix := rfl
@[simp] theorem startSequence_sel (m : Mode) : (startSequence m s).sel = s.sel := rfl
@[simp] theorem startSequence_mode (m : Mode) : (startSequence m s).mode = m := rfl
@[simp] theorem startSequence_stage (m : Mode) : (startSequence m s).stage = 0 := rfl
@[simp] theorem startSequence_k (m : Mode) : (startSequence m s).k = 0 := rfl
@[simp] theorem startSequence_busy (m : Mode) : (startSequence m s).busy = true := rfl
@[simp] theorem startSequence_done (m : Mode) : (startSequence m s).done = s.done := rfl
@[simp] theorem startSequence_fault (m : Mode) : (startSequence m s).fault = s.fault := rfl
@[simp] theorem startSequence_werr (m : Mode) : (startSequence m s).werr = s.werr := rfl
@[simp] theorem startSequence_cause (m : Mode) : (startSequence m s).cause = s.cause := rfl
@[simp] theorem startSequence_finfo (m : Mode) : (startSequence m s).finfo = s.finfo := rfl
@[simp] theorem startSequence_bufCap (m : Mode) : (startSequence m s).bufCap = s.bufCap := rfl
@[simp] theorem startSequence_draws (m : Mode) : (startSequence m s).draws = s.draws := rfl
@[simp] theorem startSequence_agenda (m : Mode) : (startSequence m s).agenda = s.agenda := rfl
@[simp] theorem startSequence_replies (m : Mode) : (startSequence m s).replies = s.replies := rfl

@[simp] theorem swapOpEffect_bufA : (swapOpEffect s).bufA = s.bufA := rfl
@[simp] theorem swapOpEffect_bufB : (swapOpEffect s).bufB = s.bufB := rfl
@[simp] theorem swapOpEffect_width : (swapOpEffect s).width = s.width := rfl
@[simp] theorem swapOpEffect_stride : (swapOpEffect s).stride = s.stride := rfl
@[simp] theorem swapOpEffect_height : (swapOpEffect s).height = s.height := rfl
@[simp] theorem swapOpEffect_x : (swapOpEffect s).x = s.x := rfl
@[simp] theorem swapOpEffect_y : (swapOpEffect s).y = s.y := rfl
@[simp] theorem swapOpEffect_w : (swapOpEffect s).w = s.w := rfl
@[simp] theorem swapOpEffect_pix : (swapOpEffect s).pix = s.pix := rfl
@[simp] theorem swapOpEffect_sel : (swapOpEffect s).sel = otherSlot s.sel := rfl
@[simp] theorem swapOpEffect_mode : (swapOpEffect s).mode = s.mode := rfl
@[simp] theorem swapOpEffect_stage : (swapOpEffect s).stage = if s.stage.toNat < 2 then s.stage + 1 else s.stage := rfl
@[simp] theorem swapOpEffect_k : (swapOpEffect s).k = s.k := rfl
@[simp] theorem swapOpEffect_busy : (swapOpEffect s).busy = s.busy := rfl
@[simp] theorem swapOpEffect_done : (swapOpEffect s).done = s.done := rfl
@[simp] theorem swapOpEffect_fault : (swapOpEffect s).fault = s.fault := rfl
@[simp] theorem swapOpEffect_werr : (swapOpEffect s).werr = s.werr := rfl
@[simp] theorem swapOpEffect_cause : (swapOpEffect s).cause = s.cause := rfl
@[simp] theorem swapOpEffect_finfo : (swapOpEffect s).finfo = s.finfo := rfl
@[simp] theorem swapOpEffect_bufCap : (swapOpEffect s).bufCap = s.bufCap := rfl
@[simp] theorem swapOpEffect_draws : (swapOpEffect s).draws = s.draws := rfl
@[simp] theorem swapOpEffect_agenda : (swapOpEffect s).agenda = s.agenda := rfl
@[simp] theorem swapOpEffect_replies : (swapOpEffect s).replies = s.replies := rfl

@[simp] theorem completeCommand_bufA : (completeCommand s).bufA = s.bufA := rfl
@[simp] theorem completeCommand_bufB : (completeCommand s).bufB = s.bufB := rfl
@[simp] theorem completeCommand_width : (completeCommand s).width = s.width := rfl
@[simp] theorem completeCommand_stride : (completeCommand s).stride = s.stride := rfl
@[simp] theorem completeCommand_height : (completeCommand s).height = s.height := rfl
@[simp] theorem completeCommand_x : (completeCommand s).x = s.x := rfl
@[simp] theorem completeCommand_y : (completeCommand s).y = s.y := rfl
@[simp] theorem completeCommand_w : (completeCommand s).w = freeWindow s.draws := rfl
@[simp] theorem completeCommand_pix : (completeCommand s).pix = Config.freeByte (s.draws + 9) := rfl
@[simp] theorem completeCommand_sel : (completeCommand s).sel = s.sel := rfl
@[simp] theorem completeCommand_mode : (completeCommand s).mode = .idle := rfl
@[simp] theorem completeCommand_stage : (completeCommand s).stage = 0 := rfl
@[simp] theorem completeCommand_k : (completeCommand s).k = 0 := rfl
@[simp] theorem completeCommand_busy : (completeCommand s).busy = false := rfl
@[simp] theorem completeCommand_done : (completeCommand s).done = true := rfl
@[simp] theorem completeCommand_fault : (completeCommand s).fault = s.fault := rfl
@[simp] theorem completeCommand_werr : (completeCommand s).werr = s.werr := rfl
@[simp] theorem completeCommand_cause : (completeCommand s).cause = s.cause := rfl
@[simp] theorem completeCommand_finfo : (completeCommand s).finfo = s.finfo := rfl
@[simp] theorem completeCommand_bufCap : (completeCommand s).bufCap = s.bufCap := rfl
@[simp] theorem completeCommand_draws : (completeCommand s).draws = s.draws + 10 := rfl
@[simp] theorem completeCommand_agenda : (completeCommand s).agenda = s.agenda := rfl
@[simp] theorem completeCommand_replies : (completeCommand s).replies = s.replies := rfl

@[simp] theorem setK_bufA (n : Nat) : (s.setK n).bufA = s.bufA := rfl
@[simp] theorem setK_bufB (n : Nat) : (s.setK n).bufB = s.bufB := rfl
@[simp] theorem setK_width (n : Nat) : (s.setK n).width = s.width := rfl
@[simp] theorem setK_stride (n : Nat) : (s.setK n).stride = s.stride := rfl
@[simp] theorem setK_height (n : Nat) : (s.setK n).height = s.height := rfl
@[simp] theorem setK_x (n : Nat) : (s.setK n).x = s.x := rfl
@[simp] theorem setK_y (n : Nat) : (s.setK n).y = s.y := rfl
@[simp] theorem setK_w (n : Nat) : (s.setK n).w = s.w := rfl
@[simp] theorem setK_pix (n : Nat) : (s.setK n).pix = s.pix := rfl
@[simp] theorem setK_sel (n : Nat) : (s.setK n).sel = s.sel := rfl
@[simp] theorem setK_mode (n : Nat) : (s.setK n).mode = s.mode := rfl
@[simp] theorem setK_stage (n : Nat) : (s.setK n).stage = s.stage := rfl
@[simp] theorem setK_k (n : Nat) : (s.setK n).k = n := rfl
@[simp] theorem setK_busy (n : Nat) : (s.setK n).busy = s.busy := rfl
@[simp] theorem setK_done (n : Nat) : (s.setK n).done = s.done := rfl
@[simp] theorem setK_fault (n : Nat) : (s.setK n).fault = s.fault := rfl
@[simp] theorem setK_werr (n : Nat) : (s.setK n).werr = s.werr := rfl
@[simp] theorem setK_cause (n : Nat) : (s.setK n).cause = s.cause := rfl
@[simp] theorem setK_finfo (n : Nat) : (s.setK n).finfo = s.finfo := rfl
@[simp] theorem setK_bufCap (n : Nat) : (s.setK n).bufCap = s.bufCap := rfl
@[simp] theorem setK_draws (n : Nat) : (s.setK n).draws = s.draws := rfl
@[simp] theorem setK_agenda (n : Nat) : (s.setK n).agenda = s.agenda := rfl
@[simp] theorem setK_replies (n : Nat) : (s.setK n).replies = s.replies := rfl
@[simp] theorem setK_geo (n : Nat) : (s.setK n).geo = s.geo := rfl
@[simp] theorem setK_buf (n : Nat) (slot : Slot) : (s.setK n).buf slot = s.buf slot := by cases slot <;> rfl
@[simp] theorem setK_byte (n : Nat) (slot : Slot) : (s.setK n).byte slot = s.byte slot := by cases slot <;> rfl
@[simp] theorem setK_ops (n : Nat) : (s.setK n).ops = s.ops := rfl
@[simp] theorem setK_setK (m n : Nat) : (s.setK m).setK n = s.setK n := rfl
@[simp] theorem setK_self : s.setK s.k = s := rfl
@[simp] theorem completeCommand_setK (n : Nat) : completeCommand (s.setK n) = completeCommand s := rfl

/-! A write of one buffer leaves every other field alone. -/

@[simp] theorem setBuf_width (slot : Slot) (m : Memory) : (s.setBuf slot m).width = s.width := by cases slot <;> rfl
@[simp] theorem setBuf_stride (slot : Slot) (m : Memory) : (s.setBuf slot m).stride = s.stride := by cases slot <;> rfl
@[simp] theorem setBuf_height (slot : Slot) (m : Memory) : (s.setBuf slot m).height = s.height := by cases slot <;> rfl
@[simp] theorem setBuf_x (slot : Slot) (m : Memory) : (s.setBuf slot m).x = s.x := by cases slot <;> rfl
@[simp] theorem setBuf_y (slot : Slot) (m : Memory) : (s.setBuf slot m).y = s.y := by cases slot <;> rfl
@[simp] theorem setBuf_w (slot : Slot) (m : Memory) : (s.setBuf slot m).w = s.w := by cases slot <;> rfl
@[simp] theorem setBuf_pix (slot : Slot) (m : Memory) : (s.setBuf slot m).pix = s.pix := by cases slot <;> rfl
@[simp] theorem setBuf_sel (slot : Slot) (m : Memory) : (s.setBuf slot m).sel = s.sel := by cases slot <;> rfl
@[simp] theorem setBuf_mode (slot : Slot) (m : Memory) : (s.setBuf slot m).mode = s.mode := by cases slot <;> rfl
@[simp] theorem setBuf_stage (slot : Slot) (m : Memory) : (s.setBuf slot m).stage = s.stage := by cases slot <;> rfl
@[simp] theorem setBuf_k (slot : Slot) (m : Memory) : (s.setBuf slot m).k = s.k := by cases slot <;> rfl
@[simp] theorem setBuf_busy (slot : Slot) (m : Memory) : (s.setBuf slot m).busy = s.busy := by cases slot <;> rfl
@[simp] theorem setBuf_done (slot : Slot) (m : Memory) : (s.setBuf slot m).done = s.done := by cases slot <;> rfl
@[simp] theorem setBuf_fault (slot : Slot) (m : Memory) : (s.setBuf slot m).fault = s.fault := by cases slot <;> rfl
@[simp] theorem setBuf_werr (slot : Slot) (m : Memory) : (s.setBuf slot m).werr = s.werr := by cases slot <;> rfl
@[simp] theorem setBuf_cause (slot : Slot) (m : Memory) : (s.setBuf slot m).cause = s.cause := by cases slot <;> rfl
@[simp] theorem setBuf_finfo (slot : Slot) (m : Memory) : (s.setBuf slot m).finfo = s.finfo := by cases slot <;> rfl
@[simp] theorem setBuf_bufCap (slot : Slot) (m : Memory) : (s.setBuf slot m).bufCap = s.bufCap := by cases slot <;> rfl
@[simp] theorem setBuf_draws (slot : Slot) (m : Memory) : (s.setBuf slot m).draws = s.draws := by cases slot <;> rfl
@[simp] theorem setBuf_agenda (slot : Slot) (m : Memory) : (s.setBuf slot m).agenda = s.agenda := by cases slot <;> rfl
@[simp] theorem setBuf_replies (slot : Slot) (m : Memory) : (s.setBuf slot m).replies = s.replies := by cases slot <;> rfl

/-! The geometry, the buffers and the micro-op list are read from the fields. -/

@[simp] theorem accept_geo : s.accept.geo = s.geo := rfl
@[simp] theorem accept_buf (slot : Slot) : s.accept.buf slot = s.buf slot := by cases slot <;> rfl
@[simp] theorem accept_byte (slot : Slot) : s.accept.byte slot = s.byte slot := by cases slot <;> rfl
@[simp] theorem accept_ops : s.accept.ops = s.ops := rfl
@[simp] theorem finish_geo : s.finish.geo = s.geo := rfl
@[simp] theorem finish_buf (slot : Slot) : s.finish.buf slot = s.buf slot := by cases slot <;> rfl
@[simp] theorem finish_byte (slot : Slot) : s.finish.byte slot = s.byte slot := by cases slot <;> rfl
@[simp] theorem finish_ops : s.finish.ops = s.ops := rfl
@[simp] theorem setWerr_geo : s.setWerr.geo = s.geo := rfl
@[simp] theorem setWerr_buf (slot : Slot) : s.setWerr.buf slot = s.buf slot := by cases slot <;> rfl
@[simp] theorem setWerr_byte (slot : Slot) : s.setWerr.byte slot = s.byte slot := by cases slot <;> rfl
@[simp] theorem setWerr_ops : s.setWerr.ops = s.ops := rfl
@[simp] theorem raise_geo (t : Trap) : (raise t s).geo = s.geo := rfl
@[simp] theorem raise_buf (t : Trap) (slot : Slot) : (raise t s).buf slot = s.buf slot := by cases slot <;> rfl
@[simp] theorem raise_byte (t : Trap) (slot : Slot) : (raise t s).byte slot = s.byte slot := by cases slot <;> rfl
@[simp] theorem raise_ops (t : Trap) : (raise t s).ops = s.ops := rfl
@[simp] theorem answer_geo (r : Reply) : (s.answer r).geo = s.geo := rfl
@[simp] theorem answer_buf (r : Reply) (slot : Slot) : (s.answer r).buf slot = s.buf slot := by cases slot <;> rfl
@[simp] theorem answer_byte (r : Reply) (slot : Slot) : (s.answer r).byte slot = s.byte slot := by cases slot <;> rfl
@[simp] theorem answer_ops (r : Reply) : (s.answer r).ops = s.ops := rfl
@[simp] theorem drawRegs_geo : s.drawRegs.geo = s.geo := rfl
@[simp] theorem drawRegs_buf (slot : Slot) : s.drawRegs.buf slot = s.buf slot := by cases slot <;> rfl
@[simp] theorem drawRegs_byte (slot : Slot) : s.drawRegs.byte slot = s.byte slot := by cases slot <;> rfl
@[simp] theorem drawRegs_ops : s.drawRegs.ops = s.ops := rfl
@[simp] theorem drawBufs_geo : s.drawBufs.geo = s.geo := rfl
@[simp] theorem drawBufs_ops : s.drawBufs.ops = s.ops := rfl
@[simp] theorem clearControl_buf (slot : Slot) : s.clearControl.buf slot = s.buf slot := by cases slot <;> rfl
@[simp] theorem clearControl_byte (slot : Slot) : s.clearControl.byte slot = s.byte slot := by cases slot <;> rfl
@[simp] theorem startSequence_geo (m : Mode) : (startSequence m s).geo = s.geo := rfl
@[simp] theorem startSequence_buf (m : Mode) (slot : Slot) : (startSequence m s).buf slot = s.buf slot := by cases slot <;> rfl
@[simp] theorem startSequence_byte (m : Mode) (slot : Slot) : (startSequence m s).byte slot = s.byte slot := by cases slot <;> rfl
@[simp] theorem swapOpEffect_geo : (swapOpEffect s).geo = s.geo := rfl
@[simp] theorem swapOpEffect_buf (slot : Slot) : (swapOpEffect s).buf slot = s.buf slot := by cases slot <;> rfl
@[simp] theorem swapOpEffect_byte (slot : Slot) : (swapOpEffect s).byte slot = s.byte slot := by cases slot <;> rfl
@[simp] theorem swapOpEffect_ops : (swapOpEffect s).ops = s.ops := rfl
@[simp] theorem completeCommand_geo : (completeCommand s).geo = s.geo := rfl
@[simp] theorem completeCommand_buf (slot : Slot) : (completeCommand s).buf slot = s.buf slot := by cases slot <;> rfl
@[simp] theorem completeCommand_byte (slot : Slot) : (completeCommand s).byte slot = s.byte slot := by cases slot <;> rfl
@[simp] theorem setBuf_geo (slot : Slot) (m : Memory) : (s.setBuf slot m).geo = s.geo := by cases slot <;> rfl
@[simp] theorem setBuf_ops (slot : Slot) (m : Memory) : (s.setBuf slot m).ops = s.ops := by cases slot <;> rfl
@[simp] theorem setBuf_buf_self (slot : Slot) (m : Memory) : (s.setBuf slot m).buf slot = m := by cases slot <;> rfl
@[simp] theorem setBuf_buf_other (slot : Slot) (m : Memory) :
    (s.setBuf (otherSlot slot) m).buf slot = s.buf slot := by cases slot <;> rfl
theorem setBuf_buf_ne (slot slot' : Slot) (m : Memory) (h : slot' ≠ slot) :
    (s.setBuf slot m).buf slot' = s.buf slot' := by
  cases slot <;> cases slot' <;> first | rfl | exact absurd rfl h
@[simp] theorem otherSlot_otherSlot (slot : Slot) : otherSlot (otherSlot slot) = slot := by cases slot <;> rfl
@[simp] theorem otherSlot_ne (slot : Slot) : otherSlot slot ≠ slot := by cases slot <;> decide

end

end Sys2Proof.Machine
end

