-- ==== Sys2Proof/Laws/Memory.lean ====
section
/-!
SUPPORT. The laws of plane memory: a read after a write, the canonical form kept by every write, and what each memory
primitive can answer.
-/

namespace Sys2Proof.Machine

theorem lookupCell_insertCell (l : List Host.Cell) (o : Nat) (v : Byte) (o' : Nat) :
    lookupCell (insertCell l o v) o' = if o' = o then some v else lookupCell l o' := by
  induction l with
  | nil => simp [insertCell, lookupCell, eq_comm]
  | cons c rest ih =>
    obtain ⟨a, u⟩ := c
    simp only [insertCell]
    split
    · simp [lookupCell, eq_comm]
    · split
      · rename_i hoa
        by_cases h : o' = o <;> simp [lookupCell, h, ← hoa, eq_comm (a := o)]
      · by_cases h : a = o'
        · subst h
          have : a ≠ o := fun e => by subst e; contradiction
          simp [lookupCell, this]
        · simp [lookupCell, h, ih]

/-- A read after a write gives the value written there, and every other offset reads as before. -/
theorem Memory.read_write (m : Memory) (o : Nat) (v : Byte) (o' : Nat) :
    (m.write o v).read o' = if o' = o then v else m.read o' := by
  by_cases h : o' = o <;> simp [Memory.read, Memory.write, lookupCell_insertCell, h]

@[simp] theorem Memory.read_write_self (m : Memory) (o : Nat) (v : Byte) : (m.write o v).read o = v := by
  simp [Memory.read_write]

theorem Memory.read_write_ne (m : Memory) (o : Nat) (v : Byte) {o' : Nat} (h : o' ≠ o) :
    (m.write o v).read o' = m.read o' := by
  simp [Memory.read_write, h]

theorem mem_insertCell {l : List Host.Cell} {o : Nat} {v : Byte} {c : Host.Cell} (h : c ∈ insertCell l o v) :
    c = (o, v) ∨ c ∈ l := by
  induction l with
  | nil => simpa [insertCell] using h
  | cons d rest ih =>
    obtain ⟨a, u⟩ := d
    simp only [insertCell] at h
    split at h
    · simpa using h
    · split at h
      · simp only [List.mem_cons] at h ⊢
        tauto
      · simp only [List.mem_cons] at h ⊢
        rcases h with h | h
        · tauto
        · rcases ih h with h | h <;> tauto

/-- A write keeps the canonical form. -/
theorem Memory.write_wf (m : Memory) (o : Nat) (v : Byte) (h : m.wf) : (m.write o v).wf := by
  obtain ⟨d, l⟩ := m
  simp only [Memory.wf, Memory.write] at h ⊢
  induction l with
  | nil => simp [insertCell]
  | cons c rest ih =>
    obtain ⟨a, u⟩ := c
    have hr := List.pairwise_cons.1 h
    simp only [insertCell]
    split
    · rename_i hlt
      refine List.pairwise_cons.2 ⟨fun e he => ?_, h⟩
      rcases List.mem_cons.1 he with rfl | he
      · exact hlt
      · exact lt_trans hlt (hr.1 e he)
    · split
      · subst_vars
        exact List.pairwise_cons.2 ⟨fun e he => hr.1 e he, hr.2⟩
      · refine List.pairwise_cons.2 ⟨fun e he => ?_, ih hr.2⟩
        rcases mem_insertCell he with rfl | he
        · show a < o
          omega
        · exact hr.1 e he

/-- A write below the capacity lists no offset beyond it. -/
theorem Memory.write_within (m : Memory) (o : Nat) (v : Byte) {cap : Nat} (h : m.within cap) (ho : o < cap) :
    (m.write o v).within cap := by
  intro c hc
  rcases mem_insertCell hc with rfl | hc
  · exact ho
  · exact h c hc

/-- A freshly drawn buffer is in canonical form. -/
@[simp] theorem Memory.wf_drawn (n : Nat) : (⟨n, []⟩ : Memory).wf := List.Pairwise.nil

@[simp] theorem Memory.within_drawn (n cap : Nat) : (⟨n, []⟩ : Memory).within cap := by simp [Memory.within]

theorem State.byte_setBuf_self (s : State) (slot : Slot) (m : Memory) (o : Nat) :
    (s.setBuf slot m).byte slot o = m.read o := by
  simp [State.byte]

@[simp] theorem State.byte_setBuf_other (s : State) (slot : Slot) (m : Memory) :
    (s.setBuf (otherSlot slot) m).byte slot = s.byte slot := by
  funext o
  simp [State.byte]

/-- What a MemRead can answer. -/
theorem State.memRead_eq_some {s : State} {slot : Slot} {o : Nat} {v : Byte} :
    s.memRead slot o = some v ↔ o < s.bufCap.toNat ∧ v = s.byte slot o := by
  unfold State.memRead
  split <;> simp_all [eq_comm]

/-- What a MemWrite can answer. -/
theorem State.memWrite_eq_some {s t : State} {slot : Slot} {o : Nat} {v : Byte} :
    s.memWrite slot o v = some t ↔ o < s.bufCap.toNat ∧ t = s.setBuf slot ((s.buf slot).write o v) := by
  unfold State.memWrite
  split <;> simp_all [eq_comm]

/-- `sample` has a value exactly for x ≥ 1 and y ≥ 1 (R100, R102). -/
theorem sample_isSome {buf : Nat → Byte} {stride x y : Nat} :
    (sample buf stride x y).isSome = true ↔ 1 ≤ x ∧ 1 ≤ y := by
  unfold sample
  split <;> simp_all

/-- What the window of a coordinate can be. -/
theorem Geometry.window_eq_some {g : Geometry} {buf : Nat → Byte} {x y : Nat} {n : Window} :
    g.window buf x y = some n ↔ g.interior x y ∧ sample buf g.stride x y = some n := by
  unfold Geometry.window
  split
  · rename_i h; exact (and_iff_right h).symm
  · rename_i h; exact iff_of_false (by simp) fun hh => h hh.1

/-- An interior coordinate has a window. -/
theorem Geometry.window_interior {g : Geometry} (buf : Nat → Byte) {x y : Nat} (h : g.interior x y) :
    ∃ n, sample buf g.stride x y = some n ∧ g.window buf x y = some n := by
  obtain ⟨n, hn⟩ := Option.isSome_iff_exists.1 (sample_isSome (buf := buf) (stride := g.stride).2 ⟨h.1, h.2.2.1⟩)
  exact ⟨n, hn, Geometry.window_eq_some.2 ⟨h, hn⟩⟩

/-- A coordinate that is not interior has none (R102). -/
theorem Geometry.window_eq_none {g : Geometry} {buf : Nat → Byte} {x y : Nat} (h : ¬ g.interior x y) :
    g.window buf x y = none := if_neg h

/-- What the nine MemReads of a window can answer. -/
theorem State.readWindow_eq_some {s : State} {slot : Slot} {x y : Nat} {n : Window} :
    s.readWindow slot x y = some n ↔
      (∀ o ∈ windowOffsets s.geo.stride x y, o < s.bufCap.toNat) ∧ s.geo.interior x y ∧
        sample (s.byte slot) s.geo.stride x y = some n := by
  rw [← Geometry.window_eq_some]
  unfold State.readWindow
  split <;> simp_all

/-- No window is read around a coordinate that is not interior (R102). -/
theorem State.readWindow_eq_none {s : State} {slot : Slot} {x y : Nat} (h : ¬ s.geo.interior x y) :
    s.readWindow slot x y = none := by
  unfold State.readWindow
  rw [Geometry.window_eq_none h, ite_self]

end Sys2Proof.Machine
end

