-- ==== Sys2Proof/Laws/Geometry.lean ====
section
/-!
SUPPORT. Consequences of `valid_geometry` and `fits` (`10_state.md` R36): every in-plane offset exists, `off` is
injective on a row, in-plane coordinates are interior or border, and what the checks at acceptance say.
-/

namespace Sys2Proof.Machine

theorem Geometry.off_lt_planeLen (g : Geometry) (hv : g.valid) {x y : Nat} (h : g.inPlane x y) :
    g.off x y < g.planeLen := by
  obtain ⟨w, st, ht⟩ := g
  simp only [Geometry.valid, Geometry.inPlane, Geometry.off, Geometry.planeLen] at *
  have : (y + 1) * st ≤ ht * st := Nat.mul_le_mul_right _ (by omega)
  rw [Nat.add_mul, Nat.mul_comm ht] at this
  omega

theorem Geometry.off_lt_cap (g : Geometry) {cap : Nat} (hv : g.valid) (hf : g.fits cap) {x y : Nat}
    (h : g.inPlane x y) : g.off x y < cap :=
  lt_of_lt_of_le (g.off_lt_planeLen hv h) hf

theorem Geometry.off_mod (g : Geometry) {x : Nat} (y : Nat) (h : x < g.stride) : g.off x y % g.stride = x := by
  simp [Geometry.off, Nat.add_comm, Nat.mod_eq_of_lt h]

theorem Geometry.off_div (g : Geometry) {x : Nat} (y : Nat) (h : x < g.stride) : g.off x y / g.stride = y := by
  have : 0 < g.stride := by omega
  simp [Geometry.off, Nat.add_comm, Nat.add_mul_div_right _ _ this, Nat.div_eq_of_lt h]

theorem Geometry.off_divMod (g : Geometry) (o : Nat) : g.off (o % g.stride) (o / g.stride) = o := by
  simp only [Geometry.off]
  rw [Nat.mul_comm]
  exact Nat.div_add_mod o g.stride

theorem Geometry.interior_inPlane {g : Geometry} {x y : Nat} (h : g.interior x y) : g.inPlane x y := by
  simp only [Geometry.interior, Geometry.inPlane] at *; omega

theorem Geometry.interior_or_border {g : Geometry} {x y : Nat} (h : g.inPlane x y) :
    g.interior x y ∨ g.border x y := by
  simp only [Geometry.interior, Geometry.border, Geometry.inPlane] at *; omega

theorem Geometry.not_interior_border {g : Geometry} {x y : Nat} (h : g.interior x y) : ¬ g.border x y := by
  simp only [Geometry.interior, Geometry.border, Geometry.inPlane] at *; omega

/-- The nine offsets around an interior coordinate are in-plane offsets (R101 (e)). -/
theorem Geometry.windowOffsets_lt (g : Geometry) {cap : Nat} (hv : g.valid) (hf : g.fits cap) {x y : Nat}
    (h : g.interior x y) : ∀ o ∈ windowOffsets g.stride x y, o < cap := by
  have key : ∀ x' y', x' < g.width → y' < g.height → y' * g.stride + x' < cap := fun x' y' hx hy =>
    g.off_lt_cap hv hf ⟨hx, hy⟩
  obtain ⟨h1, h2, h3, h4⟩ := h
  intro o ho
  simp only [windowOffsets, List.mem_cons, List.not_mem_nil, or_false] at ho
  rcases ho with rfl | rfl | rfl | rfl | rfl | rfl | rfl | rfl | rfl <;> exact key _ _ (by omega) (by omega)

/-- What the checks of SWEEP and RUN find (R186). -/
theorem State.geometryTrap_eq_none {s : State} :
    s.geometryTrap = none ↔ s.geo.valid ∧ s.geo.fits s.bufCap.toNat := by
  unfold State.geometryTrap
  by_cases hv : s.geo.valid
  · by_cases hf : s.geo.fits s.bufCap.toNat
    · rw [if_neg (not_not.2 hv), if_neg (not_not.2 hf)]
      exact iff_of_true rfl ⟨hv, hf⟩
    · rw [if_neg (not_not.2 hv), if_pos hf]
      exact iff_of_false (by simp) (fun h => hf h.2)
  · rw [if_pos hv]
    exact iff_of_false (by simp) (fun h => hv h.1)

theorem State.geometryTrap_invalid {s : State} (h : ¬ s.geo.valid) :
    s.geometryTrap = some (.invalidGeometry s.geo.faultMask) := by
  simp [State.geometryTrap, h]

theorem State.geometryTrap_tooLarge {s : State} (h : s.geo.valid) (hf : ¬ s.geo.fits s.bufCap.toNat) :
    s.geometryTrap = some .capacityExceeded := by
  simp [State.geometryTrap, h, hf]

/-- What the checks of SAMPLE find (R186). -/
theorem State.sampleTrap_eq_none {s : State} :
    s.sampleTrap = none ↔
      s.geo.valid ∧ s.geo.fits s.bufCap.toNat ∧ s.geo.interior s.x.toNat s.y.toNat := by
  unfold State.sampleTrap
  cases h : s.geometryTrap with
  | none =>
    have := State.geometryTrap_eq_none.1 h
    by_cases hi : s.geo.interior s.x.toNat s.y.toNat
    · exact iff_of_true (if_neg (not_not.2 hi)) ⟨this.1, this.2, hi⟩
    · exact iff_of_false (fun hh => by rw [if_pos hi] at hh; cases hh) (fun hh => hi hh.2.2)
  | some t =>
    have : ¬ (s.geo.valid ∧ s.geo.fits s.bufCap.toNat) := fun hh => by
      rw [State.geometryTrap_eq_none.2 hh] at h; cases h
    simp only [reduceCtorEq, false_iff]
    tauto

/-- A window around an interior coordinate is read whole when the checks have passed. -/
theorem State.readWindow_interior {s : State} {slot : Slot} {x y : Nat} (hv : s.geo.valid)
    (hf : s.geo.fits s.bufCap.toNat) (h : s.geo.interior x y) :
    ∃ n, sample (s.byte slot) s.geo.stride x y = some n ∧ s.readWindow slot x y = some n := by
  obtain ⟨n, hn, -⟩ := Geometry.window_interior (s.byte slot) h
  exact ⟨n, hn, State.readWindow_eq_some.2 ⟨s.geo.windowOffsets_lt hv hf h, h, hn⟩⟩

end Sys2Proof.Machine
end

