-- ==== Sys2Proof/Laws/Engine.lean ====
section
/-!
SUPPORT. What a micro-op, an engine step, a command, a host access and a turn can do, each said once: later proofs cite
these instead of unfolding the definitions.
-/

namespace Sys2Proof.Machine

/-- What a micro-op can do: write one existing sample of the output slot, or swap the roles. -/
theorem perform_cases {s t : State} {op : MicroOp} (h : perform s op = some t) :
    (op = .swapOp ∧ t = swapOpEffect s) ∨
    ∃ o v, o < s.bufCap.toNat ∧ t = s.setBuf (otherSlot s.sel) ((s.buf (otherSlot s.sel)).write o v) := by
  cases op with
  | pixel fn x y =>
    simp only [perform] at h
    split at h
    · exact .inr ⟨_, _, State.memWrite_eq_some.1 h⟩
    · cases h
  | copy x y =>
    simp only [perform] at h
    split at h
    · exact .inr ⟨_, _, State.memWrite_eq_some.1 h⟩
    · cases h
  | swapOp =>
    simp only [perform, Option.some.injEq] at h
    exact .inl ⟨rfl, h.symm⟩

/-- What an engine step can do: perform OPS[K], then count on or complete the command (R136). -/
theorem engineStep_cases {s t : State} (h : engineStep s = .next t) :
    ∃ op s', s.ops[s.k]? = some op ∧ perform s op = some s' ∧
      ((s.k + 1 = s.ops.length ∧ t = completeCommand s') ∨
        (s.k + 1 ≠ s.ops.length ∧ t = s'.setK (s.k + 1))) := by
  unfold engineStep at h
  split at h
  · cases h
  · rename_i op hop
    split at h
    · cases h
    · rename_i s' hs'
      refine ⟨op, s', hop, hs', ?_⟩
      split at h
      · rename_i he
        cases h
        exact .inl ⟨he, rfl⟩
      · rename_i he
        cases h
        exact .inr ⟨he, rfl⟩

/-- What a SWEEP can do at acceptance. -/
theorem sweepCommand_cases (fn : Filt) (s : State) :
    (∃ t, s.geometryTrap = some t ∧ sweepCommand fn s = raise t s.accept) ∨
    (s.geometryTrap = none ∧ sweepCommand fn s = startSequence (.sweep fn) s.accept) := by
  unfold sweepCommand
  cases s.geometryTrap with
  | none => exact .inr ⟨rfl, rfl⟩
  | some t => exact .inl ⟨t, rfl, rfl⟩

/-- The traps that the checks of a command can find are never IllegalCommand (R170). -/
theorem State.geometryTrap_cases {s : State} {t : Trap} (h : s.geometryTrap = some t) :
    t = .invalidGeometry s.geo.faultMask ∨ t = .capacityExceeded := by
  unfold State.geometryTrap at h
  split at h
  · cases h; exact .inl rfl
  · split at h
    · cases h; exact .inr rfl
    · cases h

/-- What a command can do at acceptance (R90): raise a fault, complete at once, or start the engine. -/
theorem exec_cases {i : Instr} {s t : State} (h : exec i s = .next t) :
    (∃ tr, t = raise tr s.accept) ∨
    (∃ w pix sel, t = { s with w := w, pix := pix, sel := sel, done := true }) ∨
    (s.geometryTrap = none ∧
      ((∃ fn, t = startSequence (.sweep fn) s.accept) ∨ t = startSequence .run { s.accept with sel := .a })) := by
  have sweepCase : ∀ fn, Host.Outcome.next (φ := Fault) (ρ := Refusal) (sweepCommand fn s) = .next t →
      (∃ tr, t = raise tr s.accept) ∨
      (∃ w pix sel, t = { s with w := w, pix := pix, sel := sel, done := true }) ∨
      (s.geometryTrap = none ∧
        ((∃ fn, t = startSequence (.sweep fn) s.accept) ∨ t = startSequence .run { s.accept with sel := .a })) := by
    intro fn hfn
    simp only [Host.Outcome.next.injEq] at hfn
    rcases sweepCommand_cases fn s with ⟨tr, -, he⟩ | ⟨hn, he⟩
    · exact .inl ⟨tr, hfn.symm.trans he⟩
    · exact .inr (.inr ⟨hn, .inl ⟨fn, hfn.symm.trans he⟩⟩)
  cases i with
  | nop => cases h; exact .inr (.inl ⟨s.w, s.pix, s.sel, rfl⟩)
  | sample =>
    simp only [exec, execSample] at h
    split at h
    · cases h; exact .inl ⟨_, rfl⟩
    · split at h
      · cases h; exact .inr (.inl ⟨_, s.pix, s.sel, rfl⟩)
      · cases h
  | filtSharpen => cases h; exact .inr (.inl ⟨s.w, _, s.sel, rfl⟩)
  | filtSobel => cases h; exact .inr (.inl ⟨s.w, _, s.sel, rfl⟩)
  | filtMedian => cases h; exact .inr (.inl ⟨s.w, _, s.sel, rfl⟩)
  | sweepSharpen => exact sweepCase _ h
  | sweepSobel => exact sweepCase _ h
  | sweepMedian => exact sweepCase _ h
  | swap => cases h; exact .inr (.inl ⟨s.w, s.pix, _, rfl⟩)
  | run =>
    simp only [exec, execRun] at h
    split at h
    · cases h; exact .inl ⟨_, rfl⟩
    · rename_i hn
      cases h; exact .inr (.inr ⟨hn, .inr rfl⟩)

/-- What the issue of a command can do (R90). -/
theorem issueCommand_cases {s t : State} {c : Word} (h : issueCommand s c = .next t) :
    (s.locked = true ∧ t = s.setWerr) ∨
    (s.locked = false ∧ ∃ i, decode c = .instr i ∧ exec i s = .next t) ∨
    (s.locked = false ∧ ∃ why, decode c = .illegal why ∧ t = raise (.illegalCommand c) s.accept) := by
  unfold issueCommand at h
  split at h
  · rename_i hl
    cases h; exact .inl ⟨hl, rfl⟩
  · rename_i hl
    have hl : s.locked = false := by simpa using hl
    split at h
    · rename_i i hi
      exact .inr (.inl ⟨hl, i, hi, h⟩)
    · rename_i why hw
      cases h; exact .inr (.inr ⟨hl, why, hw, rfl⟩)

/-- What a host register write can do (R29, R34). -/
theorem hostRegWrite_cases {s t : State} {r : Nat} {v : Word} (h : hostRegWrite s r v = .next t) :
    t = s ∨ t = softReset s ∨ t = s.setWerr ∨ (s.locked = false ∧ issueCommand s v = .next t) ∨
    (s.locked = false ∧ ∃ width stride height x y w,
      t = { s with width := width, stride := stride, height := height, x := x, y := y, w := w }) := by
  have g : ∀ e : State, Host.Outcome.next (φ := Fault) (ρ := Refusal) (s.gated e) = .next t →
      (s.locked = true ∧ t = s.setWerr) ∨ (s.locked = false ∧ t = e) := by
    intro e he
    simp only [Host.Outcome.next.injEq, State.gated] at he
    subst he
    cases s.locked <;> simp
  have store : ∀ width stride height x y w,
      Host.Outcome.next (φ := Fault) (ρ := Refusal) (s.gated
        { s with width := width, stride := stride, height := height, x := x, y := y, w := w }) = .next t →
      t = s ∨ t = softReset s ∨ t = s.setWerr ∨ (s.locked = false ∧ issueCommand s v = .next t) ∨
      (s.locked = false ∧ ∃ width stride height x y w,
        t = { s with width := width, stride := stride, height := height, x := x, y := y, w := w }) := by
    intro width stride height x y w he
    rcases g _ he with ⟨-, rfl⟩ | ⟨hl, he⟩
    · exact .inr (.inr (.inl rfl))
    · exact .inr (.inr (.inr (.inr ⟨hl, _, _, _, _, _, _, he⟩)))
  unfold hostRegWrite at h
  split at h
  case h_2 => cases h; exact .inl rfl
  case h_3 =>
    cases hl : s.locked with
    | true =>
      rcases issueCommand_cases h with ⟨-, ht⟩ | ⟨hl', -⟩ | ⟨hl', -⟩
      · exact .inr (.inr (.inl ht))
      · rw [hl] at hl'; cases hl'
      · rw [hl] at hl'; cases hl'
    | false => exact .inr (.inr (.inr (.inl ⟨rfl, h⟩)))
  case h_5 =>
    cases h
    split
    · exact .inr (.inl rfl)
    · exact .inl rfl
  all_goals first | exact store _ _ _ _ _ _ h | (cases h; exact .inl rfl)

/-- What a host register read can do (R34): answer, and while BUSY = 1 possibly use up one free draw. -/
theorem hostRegRead_cases (s : State) (r : Nat) :
    ∃ d v, hostRegRead s r = { s with draws := d, replies := .reg v :: s.replies } := by
  unfold hostRegRead
  split
  · exact ⟨s.draws, _, rfl⟩
  · split
    · exact ⟨s.draws + 1, _, rfl⟩
    · exact ⟨s.draws, _, rfl⟩

/-- What a host plane read can do (R57). -/
theorem hostPlaneRead_cases (s : State) (slot : Slot) (off : Nat) :
    ∃ d we v, (we = s.werr ∨ (we = true ∧ s.bufCap.toNat ≤ off)) ∧
      hostPlaneRead s slot off = { s with draws := d, werr := we, replies := .sample v :: s.replies } := by
  unfold hostPlaneRead
  split
  · rename_i h
    exact ⟨s.draws, true, _, .inr ⟨rfl, h⟩, rfl⟩
  · split
    · exact ⟨s.draws + 1, s.werr, _, .inl rfl, rfl⟩
    · exact ⟨s.draws, s.werr, _, .inl rfl, rfl⟩

/-- What a host plane write can do (R57). -/
theorem hostPlaneWrite_cases (s : State) (slot : Slot) (off : Nat) (v : Byte) :
    hostPlaneWrite s slot off v = s.setWerr ∨
    (off < s.bufCap.toNat ∧ s.locked = false ∧
      hostPlaneWrite s slot off v = s.setBuf slot ((s.buf slot).write off v)) := by
  unfold hostPlaneWrite
  split
  · exact .inl rfl
  · split
    · exact .inl rfl
    · rename_i h1 h2
      exact .inr ⟨by omega, by simpa using h2, rfl⟩

/-- What a step can do, by the next turn (R5, R6). -/
theorem step_cases {s t : State} (h : step s = .next t) :
    (s.agenda = [] ∧ engineTurn s = .next t) ∨
    ∃ turn rest, s.agenda = turn :: rest ∧
      ((∃ act, turn = .host act ∧ hostAccess { s with agenda := rest } act = .next t) ∨
        (turn = .engine ∧ engineTurn { s with agenda := rest } = .next t) ∨
        (turn = .wait ∧ s.busy = true ∧ engineStep s = .next t) ∨
        (turn = .wait ∧ s.busy = false ∧ t = hostRegRead { s with agenda := rest } 2) ∨
        (turn = .hardReset ∧ t = hardReset { s with agenda := rest })) := by
  unfold step takeTurn at h
  split at h
  · rename_i ha
    exact .inl ⟨ha, h⟩
  · rename_i act rest ha
    exact .inr ⟨_, _, ha, .inl ⟨act, rfl, h⟩⟩
  · rename_i rest ha
    exact .inr ⟨_, _, ha, .inr (.inl ⟨rfl, h⟩)⟩
  · rename_i rest ha
    split at h
    · rename_i hb
      exact .inr ⟨_, _, ha, .inr (.inr (.inl ⟨rfl, hb, h⟩))⟩
    · rename_i hb
      cases h
      exact .inr ⟨_, _, ha, .inr (.inr (.inr (.inl ⟨rfl, by simpa using hb, rfl⟩)))⟩
  · rename_i rest ha
    cases h
    exact .inr ⟨_, _, ha, .inr (.inr (.inr (.inr ⟨rfl, rfl⟩)))⟩

/-- What a micro-op leaves alone: everything but the output slot, SEL and STAGE. -/
theorem perform_frame {s t : State} {op : MicroOp} (h : perform s op = some t) :
    t = { s with bufA := t.bufA, bufB := t.bufB, sel := t.sel, stage := t.stage } := by
  rcases perform_cases h with ⟨-, rfl⟩ | ⟨o, v, -, rfl⟩
  · rfl
  · cases s.sel <;> rfl

theorem memWrite_setK (s : State) (slot : Slot) (o : Nat) (v : Byte) (n : Nat) :
    (s.setK n).memWrite slot o v = (s.memWrite slot o v).map (·.setK n) := by
  by_cases h : o < s.bufCap.toNat
  · rw [(State.memWrite_eq_some (s := s)).2 ⟨h, rfl⟩, (State.memWrite_eq_some (s := s.setK n)).2 ⟨h, rfl⟩]
    cases slot <;> rfl
  · simp [State.memWrite, h]

/-- A micro-op does not look at K. -/
theorem perform_setK (s : State) (op : MicroOp) (n : Nat) :
    perform (s.setK n) op = (perform s op).map (·.setK n) := by
  cases op with
  | pixel fn x y =>
    show (match s.readWindow s.sel x y with
      | some w => (s.setK n).memWrite (otherSlot s.sel) (s.geo.off x y) (filterFn fn w)
      | none => none) = _
    simp only [perform]
    cases s.readWindow s.sel x y with
    | none => rfl
    | some w => exact memWrite_setK ..
  | copy x y =>
    show (match s.memRead s.sel (s.geo.off x y) with
      | some v => (s.setK n).memWrite (otherSlot s.sel) (s.geo.off x y) v
      | none => none) = _
    simp only [perform]
    cases s.memRead s.sel (s.geo.off x y) with
    | none => rfl
    | some w => exact memWrite_setK ..
  | swapOp => rfl

/-- What a list of micro-ops leaves alone. -/
theorem performAll_frame {l : List MicroOp} {s t : State} (h : performAll l s = some t) :
    t = { s with bufA := t.bufA, bufB := t.bufB, sel := t.sel, stage := t.stage } := by
  induction l generalizing s with
  | nil => cases h; rfl
  | cons op l ih =>
    simp only [performAll] at h
    split at h
    · rename_i s1 hs1
      have h1 := ih h
      rw [perform_frame hs1] at h1
      exact h1
    · cases h

theorem performAll_setK (l : List MicroOp) (s : State) (n : Nat) :
    performAll l (s.setK n) = (performAll l s).map (·.setK n) := by
  induction l generalizing s with
  | nil => rfl
  | cons op l ih =>
    simp only [performAll, perform_setK]
    cases perform s op with
    | none => rfl
    | some s1 => exact ih s1

theorem performAll_append (l m : List MicroOp) (s : State) :
    performAll (l ++ m) s = (performAll l s).bind (performAll m) := by
  induction l generalizing s with
  | nil => rfl
  | cons op l ih =>
    simp only [List.cons_append, performAll]
    cases perform s op with
    | none => rfl
    | some s' => exact ih s'

theorem steps_add (m n : Nat) (s t : State) (h : steps m s = .next t) : steps (m + n) s = steps n t := by
  induction m generalizing s with
  | zero =>
    simp only [steps, Host.Outcome.next.injEq] at h
    simp [h]
  | succ m ih =>
    rw [Nat.add_right_comm]
    simp only [steps] at h ⊢
    split at h
    · exact ih _ h
    · cases h
    · cases h

end Sys2Proof.Machine
end

