-- ==== Sys2Proof/Laws/Filters.lean ====
section
/-!
SUPPORT. What the filters compute: the integer square root is the greatest root, the bounds of `41_filters.md` R112 and
R115, and the numbers that the three results stand for.
-/

namespace Sys2Proof.Machine

theorem isqrtFrom_spec (bits m r : Nat) (lo : r * r ≤ m) (hi : m < (r + 2 ^ bits) * (r + 2 ^ bits)) :
    isqrtFrom bits m r * isqrtFrom bits m r ≤ m ∧ m < (isqrtFrom bits m r + 1) * (isqrtFrom bits m r + 1) := by
  induction bits generalizing r with
  | zero => exact ⟨by simpa [isqrtFrom] using lo, by simpa [isqrtFrom] using hi⟩
  | succ bits ih =>
    simp only [isqrtFrom]
    split
    · rename_i h
      refine ih _ h ?_
      have : r + 2 ^ bits + 2 ^ bits = r + 2 ^ (bits + 1) := by rw [pow_succ]; omega
      rw [this]
      exact hi
    · rename_i h
      exact ih _ lo (by omega)

/-- `isqrt m` is the greatest r with r·r ≤ m (R7). -/
theorem isqrt_spec (m : Nat) : isqrt m * isqrt m ≤ m ∧ m < (isqrt m + 1) * (isqrt m + 1) := by
  refine isqrtFrom_spec _ m 0 (by simp) ?_
  have h : m < 2 ^ (m.log2 + 1) := Nat.lt_log2_self
  have h2 : 2 ^ (m.log2 + 1) ≤ 2 ^ (m.log2 / 2 + 1) * 2 ^ (m.log2 / 2 + 1) := by
    rw [← pow_add]
    exact Nat.pow_le_pow_right (by omega) (by omega)
  simpa using lt_of_lt_of_le h h2

theorem clampInt_bounds {v lo hi : Int} (h : lo ≤ hi) : lo ≤ clampInt v lo hi ∧ clampInt v lo hi ≤ hi := by
  unfold clampInt
  split
  · omega
  · split <;> omega

theorem toNat_ofInt_clamp (v : Int) : ((BitVec.ofInt 8 (clampInt v 0 255)).toNat : Int) = clampInt v 0 255 := by
  have h := clampInt_bounds (v := v) (lo := 0) (hi := 255) (by omega)
  rw [BitVec.toNat_ofInt]
  omega

/-- The number that `sharpen` stands for (R112). -/
theorem sharpen_toNat (n : Window) : ((sharpen n).toNat : Int) = clampInt ((sharpenT n + 1) / 2) 0 255 :=
  toNat_ofInt_clamp _

/-- The number that `sobel` stands for (R117). -/
theorem sobel_toNat (n : Window) : (sobel n).toNat = min (roundedSqrt (sobelM n)) 255 := by
  unfold sobel
  rw [BitVec.toNat_ofNat]
  omega

theorem sortSamples_perm (l : List Byte) : (sortSamples l).Perm l := List.perm_insertionSort _ l

@[simp] theorem sortSamples_length (l : List Byte) : (sortSamples l).length = l.length :=
  (sortSamples_perm l).length_eq

@[simp] theorem Window.toList_length (n : Window) : n.toList.length = 9 := rfl

end Sys2Proof.Machine
end

