-- ==== Sys2Proof/Laws/PerInstr.lean ====
section
/-!
SUPPORT. Facts about every command, one lemma per constructor: its word has the fields of R84, they are legal contents
of format C (R81), and the decoder reads the command back from it.
-/

namespace Sys2Proof.Laws.WordIsLegal

/-- The word of a command has legal fields and decodes to that command. -/
def Statement (i : Instr) : Prop :=
  i.wf = true ∧ fieldsOf (encode i) = encodeFields i ∧ (encodeFields i).wf = true ∧ decode (encode i) = .instr i

theorem nop : Statement .nop := by unfold Statement; decide
theorem sample : Statement .sample := by unfold Statement; decide
theorem filtSharpen : Statement .filtSharpen := by unfold Statement; decide
theorem filtSobel : Statement .filtSobel := by unfold Statement; decide
theorem filtMedian : Statement .filtMedian := by unfold Statement; decide
theorem sweepSharpen : Statement .sweepSharpen := by unfold Statement; decide
theorem sweepSobel : Statement .sweepSobel := by unfold Statement; decide
theorem sweepMedian : Statement .sweepMedian := by unfold Statement; decide
theorem swap : Statement .swap := by unfold Statement; decide
theorem run : Statement .run := by unfold Statement; decide

end Sys2Proof.Laws.WordIsLegal
end

