-- ==== Sys2Proof/Laws/Run.lean ====
section
/-!
SUPPORT. A stretch of engine steps performs a stretch of the micro-op list: the induction over steps, done once.
-/

namespace Sys2Proof.Machine

/-- The engine moves: no turn is pending, or the host waits. -/
def State.engineMoves (s : State) : Prop := s.agenda = [] ∨ ∃ rest, s.agenda = .wait :: rest

theorem step_eq_engineStep {s : State} (ha : s.engineMoves) (hb : s.busy = true) : step s = engineStep s := by
  rcases ha with ha | ⟨rest, ha⟩ <;> simp [step, takeTurn, ha, engineTurn, hb]

/-- One engine step that is not the last. -/
theorem engineStep_mid {s s' : State} {op : MicroOp} (hop : s.ops[s.k]? = some op) (hp : perform s op = some s')
    (hk : s.k + 1 ≠ s.ops.length) : engineStep s = .next (s'.setK (s.k + 1)) := by
  simp [engineStep, hop, hp, hk]

/-- The last engine step of a command. -/
theorem engineStep_last {s s' : State} {op : MicroOp} (hop : s.ops[s.k]? = some op) (hp : perform s op = some s')
    (hk : s.k + 1 = s.ops.length) : engineStep s = .next (completeCommand s') := by
  simp [engineStep, hop, hp, hk]

/-- A list of micro-ops that stands at K and does not reach the end of OPS is performed by as many steps, BUSY all the
time. -/
theorem steps_segment (l : List MicroOp) {s t : State} {pre post : List MicroOp} (hb : s.busy = true)
    (ha : s.engineMoves) (ho : s.ops = pre ++ l ++ post) (hk : pre.length = s.k) (hne : post ≠ [])
    (hp : performAll l s = some t) :
    steps l.length s = .next (t.setK (s.k + l.length)) ∧
      ∀ n, n ≤ l.length → ∃ v, performAll (l.take n) s = some v ∧ steps n s = .next (v.setK (s.k + n)) := by
  induction l generalizing s t pre with
  | nil =>
    cases hp
    refine ⟨rfl, fun n hn => ⟨s, by simp [performAll], ?_⟩⟩
    obtain rfl : n = 0 := by simpa using hn
    rfl
  | cons op l ih =>
    simp only [performAll] at hp
    split at hp
    swap
    · cases hp
    rename_i s1 hs1
    have hfr := perform_frame hs1
    have hop : s.ops[s.k]? = some op := by rw [ho, ← hk]; simp
    have hlen : s.k + 1 ≠ s.ops.length := by
      have : post.length ≠ 0 := by simpa using hne
      rw [ho]
      simp only [List.length_append, List.length_cons, hk]
      omega
    have hst : step s = .next (s1.setK (s.k + 1)) :=
      (step_eq_engineStep ha hb).trans (engineStep_mid hop hs1 hlen)
    have hops : (s1.setK (s.k + 1)).ops = s.ops := by rw [hfr]; rfl
    obtain ⟨h1, h2⟩ := ih (s := s1.setK (s.k + 1)) (t := t.setK (s.k + 1)) (pre := pre ++ [op])
      (by rw [hfr]; exact hb) (by rw [hfr]; exact ha) (by rw [hops, ho]; simp) (by simp [hk])
      (by rw [performAll_setK, hp]; rfl)
    constructor
    · simp only [List.length_cons, steps, hst, h1, setK_setK, setK_k, Nat.add_assoc, Nat.add_comm 1]
    · intro n hn
      cases n with
      | zero => exact ⟨s, rfl, rfl⟩
      | succ n =>
        obtain ⟨v, hv1, hv2⟩ := h2 n (by simpa using hn)
        rw [performAll_setK] at hv1
        cases hv : performAll (l.take n) s1 with
        | none => rw [hv] at hv1; cases hv1
        | some v' =>
          rw [hv] at hv1
          cases hv1
          refine ⟨v', by simp [performAll, hs1, hv], ?_⟩
          simp only [steps, hst, hv2, setK_setK, setK_k, Nat.add_assoc, Nat.add_comm 1]

/-- The rest of OPS is performed by as many steps, the last of which completes the command. -/
theorem steps_rest (l : List MicroOp) {s t : State} {pre : List MicroOp} (hb : s.busy = true)
    (ha : s.engineMoves) (ho : s.ops = pre ++ l) (hk : pre.length = s.k) (hne : l ≠ [])
    (hp : performAll l s = some t) :
    steps l.length s = .next (completeCommand t) ∧
      ∀ n, n < l.length → ∃ v, performAll (l.take n) s = some v ∧ steps n s = .next (v.setK (s.k + n)) := by
  obtain ⟨init, last, rfl⟩ : ∃ i a, l = i ++ [a] := ⟨_, _, (List.dropLast_append_getLast hne).symm⟩
  rw [performAll_append] at hp
  cases h1 : performAll init s with
  | none => rw [h1] at hp; cases hp
  | some s1 =>
    rw [h1] at hp
    simp only [Option.bind_some, performAll] at hp
    split at hp
    swap
    · cases hp
    rename_i s2 hs2
    cases hp
    obtain ⟨g1, g2⟩ := steps_segment init (post := [last]) hb ha (by rw [ho]; simp) hk (by simp) h1
    have hfr := performAll_frame h1
    constructor
    · rw [List.length_append, steps_add _ _ _ _ g1]
      have hops : (s1.setK (s.k + init.length)).ops = s.ops := by rw [hfr]; rfl
      have hb' : (s1.setK (s.k + init.length)).busy = true := by rw [hfr]; exact hb
      have ha' : (s1.setK (s.k + init.length)).engineMoves := by rw [hfr]; exact ha
      have hlast : engineStep (s1.setK (s.k + init.length)) = .next (completeCommand (t.setK (s.k + init.length))) := by
        refine engineStep_last (op := last) ?_ ?_ ?_
        · rw [hops, ho, setK_k, ← hk]
          simp
        · rw [perform_setK, hs2]
          rfl
        · rw [hops, ho, setK_k]
          simp [hk, Nat.add_assoc]
      simp only [List.length_cons, List.length_nil, steps, step_eq_engineStep ha' hb', hlast]
      rfl
    · intro n hn
      have hn' : n ≤ init.length := by simpa [Nat.lt_succ_iff] using hn
      obtain ⟨v, hv1, hv2⟩ := g2 n hn'
      exact ⟨v, by rw [List.take_append_of_le_length hn']; exact hv1, hv2⟩

end Sys2Proof.Machine
end

