-- ==== Sys2Proof/Tests/Slice0.lean ====
section
/-!
SUPPORT. Tests. The expected values are the spec's own (`30_encoding.md` R84, R85; `95_test_vectors.md`, the vector is
named). The second half holds one witness for every statement that has hypotheses: a state and operands, often at a
boundary, that meet all of them together.
-/

namespace Sys2Proof.Tests

open Sys2Proof.Machine

/-! ## Helpers -/

/-- A field of the next state, if there is one. -/
def get {α : Type} (f : State → α) : Host.Outcome State Fault Refusal → Option α
  | .next s => some (f s)
  | .fault _ => none
  | .refused _ => none

/-- A list of samples as the cells of a buffer. -/
def cellsFrom : Nat → List Byte → List Host.Cell
  | _, [] => []
  | n, b :: rest => (n, b) :: cellsFrom (n + 1) rest

/-- A buffer that holds a list of samples. -/
def filled (l : List Byte) : Memory := ⟨0, cellsFrom 0 l⟩

/-- The window of vector T10 at (2, 1). -/
def win : Window := ⟨20, 30, 40, 200, 80, 90, 120, 13, 140⟩

/-- An idle block of capacity 100 that holds the 3×3 image of vector T1, with (X, Y) = (1, 1). -/
def rig : State :=
  { bufA := filled [10, 20, 10, 20, 30, 20, 10, 20, 10], bufB := filled [1, 2, 3, 4, 5, 6, 7, 8, 9]
    width := 3, stride := 3, height := 3, x := 1, y := 1, w := win, pix := 0, sel := .a
    mode := .idle, stage := 0, k := 0, busy := false, done := false, fault := false, werr := false
    cause := 0, finfo := 0, bufCap := 100, draws := 0, agenda := [], replies := [] }

/-- The same block with one turn pending. -/
def turn (t : Turn) : State := { rig with agenda := [t] }

/-- The same block about to write a word to CMD. -/
def cmd (c : Word) : State := turn (.host (.regWrite 1 c))

/-- The same block with another geometry. -/
def geometry (w st ht : Word) : State := { rig with width := w, stride := st, height := ht }

/-- A sweep in progress, before micro-op `k` of its 13. -/
def sweeping (k : Nat) : State := { rig with mode := .sweep .sharpen, k := k, busy := true }

/-- A RUN in progress, at the first micro-op of its second stage. -/
def running : State := { rig with mode := .run, stage := 1, k := 14, sel := .b, busy := true }

/-- A block that has taken NonInterior. -/
def faulted : State := { rig with x := 2, fault := true, cause := 4 }

/-- A command on the idle block. -/
def after (i : Instr) : Host.Outcome State Fault Refusal := exec i rig

/-! ## WellFormed: one ill-formed term for each check -/

theorem test_wf_accepts_legal : (encodeFields .sweepMedian).wf = true := by decide
theorem test_wf_refuses_zero_field : (⟨1, 0, 0⟩ : Fields).wf = false := by decide
theorem test_wf_refuses_opcode_6 : (⟨0, 0, 6⟩ : Fields).wf = false := by decide
theorem test_wf_refuses_fn_3_of_filt : (⟨0, 3, 2⟩ : Fields).wf = false := by decide
theorem test_wf_refuses_fn_3_of_sweep : (⟨0, 3, 3⟩ : Fields).wf = false := by decide
theorem test_wf_refuses_unused_fn : (⟨0, 1, 4⟩ : Fields).wf = false := by decide

/-! ## Decode: the words of R84 bit by bit, ZERO FN OPC from the left -/

theorem test_decode_nop : decode 0b0000000000000000000000_00_00000000#32 = .instr .nop := by decide
theorem test_decode_sample : decode 0b0000000000000000000000_00_00000001#32 = .instr .sample := by decide
theorem test_decode_filt_sharpen : decode 0b0000000000000000000000_00_00000010#32 = .instr .filtSharpen := by decide
theorem test_decode_filt_sobel : decode 0b0000000000000000000000_01_00000010#32 = .instr .filtSobel := by decide
theorem test_decode_filt_median : decode 0b0000000000000000000000_10_00000010#32 = .instr .filtMedian := by decide
theorem test_decode_sweep_sharpen : decode 0b0000000000000000000000_00_00000011#32 = .instr .sweepSharpen := by decide
theorem test_decode_sweep_sobel : decode 0b0000000000000000000000_01_00000011#32 = .instr .sweepSobel := by decide
theorem test_decode_sweep_median : decode 0b0000000000000000000000_10_00000011#32 = .instr .sweepMedian := by decide
theorem test_decode_swap : decode 0b0000000000000000000000_00_00000100#32 = .instr .swap := by decide
theorem test_decode_run : decode 0b0000000000000000000000_00_00000101#32 = .instr .run := by decide

/-- R85, one word of each of its four cases. -/
theorem test_decode_illegal :
    decode 0x00000400#32 = .illegal .zeroFieldNonzero ∧ decode 0x00000006#32 = .illegal .opcUndefined ∧
    decode 0x00000302#32 = .illegal .fnReserved ∧ decode 0x00000105#32 = .illegal .fnUnused := by decide

/-- More words of R85: the top bit of ZERO, and a defined opcode in the wrong byte. -/
theorem test_decode_illegal_edges :
    decode 0x80000001#32 = .illegal .zeroFieldNonzero ∧ decode 0x000000FF#32 = .illegal .opcUndefined ∧
    decode 0x00000303#32 = .illegal .fnReserved ∧ decode 0x00000304#32 = .illegal .fnUnused := by decide

theorem test_decodeTableWord :
    decodeTableWord 32 0x00000102 = some .filtSobel ∧ decodeTableWord 32 0x00000006 = none := by decide

/-! ## One step each -/

/-- R154: STATUS reads 0x02 after NOP. -/
theorem test_nop_status : get State.status (after .nop) = some 0x00000002#32 := by decide

/-- R101's plane is vector T10's; here the smallest plane, T11: the window is the whole image. -/
theorem test_sample_smallest_plane :
    get (·.w) (after .sample) = some ⟨10, 20, 10, 20, 30, 20, 10, 20, 10⟩ := by decide

/-- T10 at (2, 1): rows are STRIDE = 6 apart, padding not read. -/
theorem test_sample_strided :
    get (·.w) (exec .sample { geometry 5 6 4 with
      x := 2, y := 1
      bufA := filled [10, 20, 30, 40, 50, 1, 60, 200, 80, 90, 100, 2, 110, 120, 13, 140, 150, 3,
                      160, 170, 180, 190, 255, 4] }) = some win := by decide

/-- T10: sharpen 74. -/
theorem test_filt_sharpen : get (·.pix) (after .filtSharpen) = some 74 := by decide

/-- T10: sobel 245. -/
theorem test_filt_sobel : get (·.pix) (after .filtSobel) = some 245 := by decide

/-- T10: median 80. -/
theorem test_filt_median : get (·.pix) (after .filtMedian) = some 80 := by decide

/-- T14, T15, T17: halves round up, the clamp, negative sums. -/
theorem test_filter_corners :
    sharpen ⟨0, 1, 0, 0, 1, 0, 0, 0, 0⟩ = 3 ∧ sharpen ⟨0, 1, 0, 0, 85, 0, 0, 0, 0⟩ = 255 ∧
    sobel ⟨0, 1, 0, 0, 0, 0, 0, 0, 0⟩ = 2 ∧ sobel ⟨0, 0, 255, 0, 0, 255, 0, 0, 255⟩ = 255 ∧
    median ⟨5, 5, 5, 5, 0, 0, 0, 0, 255⟩ = 5 := by decide

/-- R139: BUSY at once, no sample written yet. -/
theorem test_sweep_sharpen_starts :
    get (fun t => (t.status, t.mode, t.bufB)) (after .sweepSharpen) =
      some (0x00000001#32, .sweep .sharpen, rig.bufB) := by decide

theorem test_sweep_sobel_starts :
    get (fun t => (t.busy, t.mode)) (after .sweepSobel) = some (true, .sweep .sobel) := by decide

theorem test_sweep_median_starts :
    get (fun t => (t.busy, t.mode)) (after .sweepMedian) = some (true, .sweep .median) := by decide

/-- R151: STATUS reads 0x12 after the first SWAP. -/
theorem test_swap_status : get State.status (after .swap) = some 0x00000012#32 := by decide

/-- R152: SEL is forced to A. -/
theorem test_run_forces_slot_a :
    get (fun t => (t.status, t.mode)) (exec .run { rig with sel := .b }) = some (0x00000001#32, .run) := by decide

/-- R172: the masks of its three examples, on RUN. -/
theorem test_run_geometry_masks :
    get (·.finfo) (exec .run (geometry 0 0 0)) = some 0x00000007#32 ∧
    get (·.finfo) (exec .run (geometry 4 3 2)) = some 0x00000008#32 ∧
    get (·.finfo) (exec .run (geometry 4 0 2)) = some 0x0000000A#32 := by decide

/-- The first micro-op of T1's sweep: the centre becomes 50. -/
theorem test_engine_pixel : get (fun t => (t.byte .b 4, t.k)) (step (sweeping 0)) = some (50, 1) := by decide

/-- The second: the corner is copied. -/
theorem test_engine_copy : get (fun t => (t.byte .b 0, t.byte .b 4)) (step (sweeping 1)) = some (10, 5) := by decide

/-- The last of the 13 ends the command (P1 step 14). -/
theorem test_engine_last : get State.status (step (sweeping 12)) = some 0x00000002#32 := by decide

/-- P5 step 8: a write to WIDTH of a faulted block is dropped with WERR. -/
theorem test_faulted_write_dropped :
    get (fun t => (t.width, t.status)) (step { faulted with agenda := [.host (.regWrite 4 7)] }) =
      some (3, 0x0000000C#32) := by decide

/-- P2 steps 4 to 6: the lanes of WIN0, WIN1 and WIN2. -/
theorem test_window_lanes :
    win.win0 = 0xC8281E14#32 ∧ win.win1 = 0x0D785A50#32 ∧ win.win2 = 0x0000008C#32 := by decide

/-- The machine of the host is this one, and an idle block with nothing to do stays as it is (R185). -/
theorem test_reset_waits : step State.reset = .next State.reset := rfl

/-- The host's two readings of a table row agree on the first instruction after reset. -/
theorem test_reset_runs_table_word :
    step (State.reset.withFetchWord 32 0x00000004) = exec .swap State.reset := rfl

/-! ## Witnesses: states that satisfy the invariant -/

theorem test_rig_inv : rig.Inv where
  memA := by decide
  memB := by decide
  capPos := by decide
  modeBusy := by decide
  idleSeq := by decide
  sweepStage := by intro fn h; rfl
  busyClean := by decide
  faultDone := by decide
  noFaultRecord := by decide
  faultCause := by decide
  busyGeo := by decide
  busyK := by decide
  runStage := by decide

theorem test_sweeping_inv : (sweeping 12).Inv where
  memA := by decide
  memB := by decide
  capPos := by decide
  modeBusy := by decide
  idleSeq := by decide
  sweepStage := by intro fn h; rfl
  busyClean := by decide
  faultDone := by decide
  noFaultRecord := by decide
  faultCause := by decide
  busyGeo := by decide
  busyK := by decide
  runStage := by decide

theorem test_running_inv : running.Inv where
  memA := by decide
  memB := by decide
  capPos := by decide
  modeBusy := by decide
  idleSeq := by decide
  sweepStage := by intro fn h; cases h
  busyClean := by decide
  faultDone := by decide
  noFaultRecord := by decide
  faultCause := by decide
  busyGeo := by decide
  busyK := by decide
  runStage := by decide

theorem test_faulted_inv : faulted.Inv where
  memA := by decide
  memB := by decide
  capPos := by decide
  modeBusy := by decide
  idleSeq := by decide
  sweepStage := by intro fn h; rfl
  busyClean := by decide
  faultDone := by decide
  noFaultRecord := by decide
  faultCause := by decide
  busyGeo := by decide
  busyK := by decide
  runStage := by decide

/-! ## Witnesses: one for each statement with hypotheses -/

/-- What most statements ask of an idle block. -/
abbrev good (s : State) : Prop :=
  s.geo.valid ∧ s.geo.fits s.bufCap.toNat ∧ s.agenda = [] ∧ s.busy = false ∧ s.fault = false ∧ s.werr = false ∧
    s.sel = .a ∧ s.mode = .idle

theorem test_witness_IllegalWordRaisesIllegalCommand :
    (cmd 0x00000303#32).agenda = [.host (.regWrite 1 0x00000303#32)] ∧ rig.busy = false ∧ rig.fault = false ∧
    (∀ i, (0x00000303#32 : Word) ≠ encode i) ∧ (∀ i, (0x00000006#32 : Word) ≠ encode i) ∧
    (∀ i, (0x00000400#32 : Word) ≠ encode i) ∧ (∀ i, (0x00000105#32 : Word) ≠ encode i) :=
  ⟨rfl, rfl, rfl, by intro i; cases i <;> decide, by intro i; cases i <;> decide, by intro i; cases i <;> decide,
    by intro i; cases i <;> decide⟩

theorem test_witness_StepRunsIssuedCommand :
    (cmd 0x00000203#32).agenda = [.host (.regWrite 1 0x00000203#32)] ∧ (cmd 0x00000203#32).busy = false ∧
    (cmd 0x00000203#32).fault = false ∧ decode 0x00000203#32 = .instr .sweepMedian := by decide

theorem test_witness_FetchWordRunsNext :
    rig.busy = false ∧ rig.fault = false ∧ decodeTableWord 32 5 = some .run := by decide

theorem test_witness_NopOnlySetsDone_locked :
    (cmd 0).agenda = [.host (.regWrite 1 0x00000000#32)] ∧
    ({ sweeping 0 with agenda := [.host (.regWrite 1 0x00000000#32)] } : State).busy = true ∧
    ({ faulted with agenda := [.host (.regWrite 1 0x00000000#32)] } : State).fault = true := by decide

theorem test_witness_NopOnlySetsDone_reset : exec .nop State.reset = .next { State.reset with done := true } := rfl

theorem test_witness_SwapTogglesSel :
    exec .swap State.reset = .next { State.reset with sel := .b, done := true } ∧
    exec .swap { State.reset with sel := .b, done := true } = .next { State.reset with done := true } := ⟨rfl, rfl⟩

theorem test_witness_FiltSharpenWritesPix : (⟨255, 0, 0, 0, 0, 0, 0, 0, 255⟩ : Window).mc = 0 := by decide

theorem test_witness_FiltSobelWritesPix :
    (0 : Byte).toNat + (255 : Byte).toNat < 256 ∧ (1 : Byte).toNat + (254 : Byte).toNat < 256 := by decide

theorem test_witness_FiltMedianWritesPix :
    (⟨255, 0, 0, 255, 255, 0, 255, 255, 0⟩ : Window).toList.Perm [0, 0, 0, 0, 255, 255, 255, 255, 255] ∧
    (⟨255, 0, 0, 255, 0, 0, 255, 255, 0⟩ : Window).toList.Perm [0, 0, 0, 0, 0, 255, 255, 255, 255] ∧
    (⟨9, 8, 7, 6, 5, 4, 3, 2, 1⟩ : Window).toList.Perm [1, 2, 3, 4, 5, 6, 7, 8, 9] := by decide

/-- The first coordinate that has a window, the ones before it that have none, and the last of a 3×3 plane. -/
theorem test_witness_SampleIsRowMajor :
    (sample (rig.byte .a) 3 1 1).isSome = true ∧ sample (rig.byte .a) 3 0 1 = none ∧
    sample (rig.byte .a) 3 1 0 = none ∧ rig.geo.interior 1 1 ∧ ¬ rig.geo.interior 0 1 ∧ ¬ rig.geo.interior 2 1 ∧
    rig.readWindow .a 2 1 = none := by decide

/-- The four outcomes of SAMPLE, each one step beyond the last good value. -/
theorem test_witness_SampleLoadsWindow :
    (rig.geo.valid ∧ rig.geo.fits rig.bufCap.toNat ∧ rig.geo.interior rig.x.toNat rig.y.toNat) ∧
    ¬ (geometry 4 3 3).geo.valid ∧
    ((geometry 3 101 1).geo.valid ∧ ¬ (geometry 3 101 1).geo.fits rig.bufCap.toNat) ∧
    (faulted.geo.valid ∧ faulted.geo.fits faulted.bufCap.toNat ∧
      ¬ faulted.geo.interior faulted.x.toNat faulted.y.toNat) := by decide

theorem test_witness_InvalidGeometryFaultMask :
    ¬ (geometry 0 0 0).geo.valid ∧ ¬ (geometry 4 3 3).geo.valid ∧ ¬ (geometry 1 1 0).geo.valid ∧
    Instr.run ∈ [Instr.sample, .sweepSharpen, .sweepSobel, .sweepMedian, .run] := by decide

/-- A plane of 101 samples and one of exactly 100. -/
theorem test_witness_CapacityExceededFault :
    ((geometry 1 101 1).geo.valid ∧
      rig.bufCap.toNat < (geometry 1 101 1).stride.toNat * (geometry 1 101 1).height.toNat) ∧
    ((geometry 10 10 10).geo.valid ∧
      (geometry 10 10 10).stride.toNat * (geometry 10 10 10).height.toNat ≤ rig.bufCap.toNat ∧
      9 < (geometry 10 10 10).width.toNat ∧ 9 < (geometry 10 10 10).height.toNat) := by decide

/-- The four edges of the interior, and a coordinate near 2^32. -/
theorem test_witness_NonInteriorFault :
    rig.geo.valid ∧ rig.geo.fits rig.bufCap.toNat ∧ ({ rig with x := 0 } : State).x.toNat = 0 ∧
    rig.width.toNat < ({ rig with x := 2 } : State).x.toNat + 2 ∧ ({ rig with y := 0 } : State).y.toNat = 0 ∧
    rig.height.toNat < ({ rig with y := 2 } : State).y.toNat + 2 ∧
    rig.width.toNat < ({ rig with x := 0xFFFFFFFF } : State).x.toNat + 2 := by decide

/-- One state for each clause of the table: an illegal word, a command without checks, and the five outcomes of those
with checks. -/
theorem test_witness_FaultTable :
    (rig.busy = false ∧ rig.fault = false ∧ rig.cause = 0 ∧ rig.finfo = 0) ∧
    (decode 0x00000304#32 = .illegal .fnUnused ∧ (get (·.cause) (step (cmd 0x00000304#32))) = some 1) ∧
    (decode 0x00000004#32 = .instr .swap ∧ (get (·.cause) (step (cmd 0x00000004#32))) = some 0) ∧
    (decode 0x00000005#32 = .instr .run ∧ ¬ (geometry 0 3 3).geo.valid ∧
      (get (·.cause) (step { geometry 0 3 3 with agenda := (cmd 5).agenda })) = some 2) ∧
    ((geometry 3 34 3).geo.valid ∧ ¬ (geometry 3 34 3).geo.fits rig.bufCap.toNat ∧
      (get (·.cause) (step { geometry 3 34 3 with agenda := (cmd 5).agenda })) = some 3) ∧
    (¬ ({ rig with y := 2 } : State).geo.interior 1 2 ∧
      (get (·.cause) (step { cmd 1 with y := 2 })) = some 4) ∧
    (get (·.cause) (step (cmd 1))) = some 0 ∧ (get (·.cause) (step (cmd 5))) = some 0 := by decide

theorem test_witness_FaultsArePrecise :
    rig.fault = false ∧ get (·.fault) (step (cmd 0xFFFFFFFF#32)) = some true := by decide

theorem test_witness_FaultIsSticky_stays :
    { faulted with agenda := [.host (.regWrite 4 9)] }.Inv ∧
    get (·.werr) (step { faulted with agenda := [.host (.regWrite 4 9)] }) = some true ∧
    ¬ State.nextIsReset { faulted with agenda := [.host (.regWrite 4 9)] } := by
  refine ⟨{ test_faulted_inv with }, by decide, ?_⟩
  rintro (h | ⟨v, h, -⟩) <;> simp at h

theorem test_witness_FaultIsSticky_reads :
    { faulted with agenda := [.host (.planeRead .a 8)] }.Inv ∧ 8 < faulted.bufCap.toNat ∧
    get (·.replies) (step { faulted with agenda := [.host (.planeRead .a 8)] }) = some [.sample 10] ∧
    { faulted with agenda := [.host (.regRead 13)] }.Inv ∧
    get (·.replies) (step { faulted with agenda := [.host (.regRead 13)] }) = some [.reg 4] ∧
    { faulted with agenda := [.host (.planeWrite .a 8 1)] }.Inv ∧
    get (·.werr) (step { faulted with agenda := [.host (.planeWrite .a 8 1)] }) = some true :=
  ⟨{ test_faulted_inv with }, by decide, by decide, { test_faulted_inv with }, by decide,
    { test_faulted_inv with }, by decide⟩

theorem test_witness_FaultIsSticky_reset :
    { faulted with agenda := [.host (.regWrite 3 1)] }.Inv ∧
    get (·.fault) (step { faulted with agenda := [.host (.regWrite 3 1)] }) = some false ∧
    State.nextIsReset { faulted with agenda := [.host (.regWrite 3 1)] } :=
  ⟨{ test_faulted_inv with }, by decide, .inr ⟨1, rfl, by decide⟩⟩

theorem test_witness_WerrExactly_dropped :
    State.nextIsDropped { rig with agenda := [.host (.planeRead .b 100)] } ∧
    State.nextIsDropped { sweeping 0 with agenda := [.host (.regWrite 11 0)] } ∧
    State.nextIsDropped { faulted with agenda := [.host (.planeWrite .a 0 0)] } :=
  ⟨.inr (.inr ⟨.b, 100, rfl, by decide⟩), .inl ⟨11, 0, rfl, by decide, by decide⟩,
    .inr (.inl ⟨.a, 0, 0, rfl, by decide⟩)⟩

/-- Both answers of WERR: a dropped access sets it, an access to a read-only register does not. -/
theorem test_witness_WerrExactly :
    get (·.werr) (step { sweeping 0 with agenda := [.host (.planeWrite .a 0 1)] }) = some true ∧
    get (·.werr) (step { sweeping 0 with agenda := [.host (.regWrite 12 1)] }) = some false ∧
    get (·.werr) (step { rig with agenda := [.host (.planeRead .b 100)] }) = some true ∧
    get (·.werr) (step { rig with agenda := [.host (.planeRead .b 99)], bufB := ⟨0, [(99, 1)]⟩ }) = some false ∧
    get (·.werr) (step { faulted with werr := true, agenda := [.host (.regWrite 3 1)] }) = some false := by decide

theorem test_witness_SweepCommandsStart : good rig ∧ good (geometry 1 1 1) ∧ good (geometry 10 10 10) := by decide

theorem test_witness_SweepOpsCoverThePlane :
    rig.geo.valid ∧ MicroOp.pixel .sobel 1 1 ∈ sweepOps .sobel rig.geo.width rig.geo.height ∧
    MicroOp.copy 2 2 ∈ sweepOps .sobel rig.geo.width rig.geo.height := by decide

theorem test_witness_MicroOpEffects :
    good rig ∧ rig.geo.interior 1 1 ∧ rig.geo.border 2 2 ∧ ¬ rig.geo.interior 0 1 ∧ ¬ rig.geo.interior 1 2 := by decide

theorem test_witness_EngineStepPerformsNextMicroOp_modes :
    ((sweeping 12).agenda = [] ∧ (sweeping 12).mode = .sweep .sharpen ∧ (sweeping 12).Inv ∧ (sweeping 12).busy = true) ∧
    (running.agenda = [] ∧ running.mode = .run ∧ running.Inv ∧ running.busy = true) :=
  ⟨⟨rfl, rfl, test_sweeping_inv, rfl⟩, ⟨rfl, rfl, test_running_inv, rfl⟩⟩

/-- A turn offered to a busy engine and to an idle one, and a wait of either kind. -/
theorem test_witness_EngineStepPerformsNextMicroOp_turns :
    ({ sweeping 0 with agenda := [.engine, .hardReset] } : State).agenda = [.engine, .hardReset] ∧
    (sweeping 0).busy = true ∧ get (·.k) (step { sweeping 0 with agenda := [.engine, .hardReset] }) = some 1 ∧
    (turn .engine).agenda = [.engine] ∧ rig.busy = false ∧ get (·.agenda) (step (turn .engine)) = some [] ∧
    (turn .wait).agenda = [.wait] ∧ get (·.replies) (step (turn .wait)) = some [.reg 0] ∧
    get (fun t => (t.k, t.agenda)) (step { sweeping 0 with agenda := [.wait] }) = some (1, [.wait]) := by decide

theorem test_witness_EngineStepPerformsNextMicroOp :
    (rig.agenda = [] ∧ rig.busy = false) ∧
    ((sweeping 0).agenda = [] ∧ (sweeping 0).busy = true ∧ (sweeping 0).ops[(sweeping 0).k]? = some (.pixel .sharpen 1 1) ∧
      (perform (sweeping 0) (.pixel .sharpen 1 1)).isSome = true ∧
      (sweeping 0).k + 1 < (sweeping 0).ops.length) ∧
    ((sweeping 12).busy = true ∧ (sweeping 12).ops[(sweeping 12).k]? = some (.copy 2 2) ∧
      (perform (sweeping 12) (.copy 2 2)).isSome = true ∧ (sweeping 12).k + 1 = (sweeping 12).ops.length) := by decide

/-- Interior, border and neither, on a plane with padding. -/
theorem test_witness_SweepFunctionCases :
    (geometry 3 4 3).geo.valid ∧ (geometry 3 4 3).geo.interior 1 1 ∧ (geometry 3 4 3).geo.border 2 2 ∧
    (geometry 3 4 3).geo.off 1 1 = 5 ∧ (2 : Nat) < 4 := by decide

theorem test_witness_SweepFunctionCases_outside :
    ¬ ∃ x y, (geometry 3 4 3).geo.inPlane x y ∧ (geometry 3 4 3).geo.off x y = 3 := by
  rintro ⟨x, y, ⟨hx, -⟩, h⟩
  have hx : x < 3 := hx
  have h : y * 4 + x = 3 := h
  omega

theorem test_witness_DegenerateSweepCopies :
    good (geometry 2 3 9) ∧ (geometry 2 3 9).geo.width < 3 ∧ good (geometry 9 9 2) ∧ (geometry 9 9 2).geo.height < 3 ∧
    (geometry 9 9 2).geo.inPlane 8 1 := by decide

theorem test_witness_SweepProperties :
    (geometry 3 4 3).geo.valid ∧ (geometry 3 4 3).geo.border 0 0 ∧ (geometry 3 4 3).geo.interior 1 1 ∧
    (geometry 3 4 3).geo.padding 3 2 ∧ (geometry 3 4 3).geo.planeLen ≤ 12 := by decide

/-- Two inputs that differ in the padding only, two outputs that differ in the plane only. -/
theorem test_witness_SweepProperties_inputs :
    (∀ x y, (geometry 3 4 3).geo.inPlane x y →
      (fun o => if o % 4 = 3 then (1 : Byte) else 0) ((geometry 3 4 3).geo.off x y) =
        (fun _ => 0) ((geometry 3 4 3).geo.off x y)) ∧
    (∀ o, (∀ x y, (geometry 3 4 3).geo.inPlane x y → (geometry 3 4 3).geo.off x y ≠ o) →
      (fun o => if o = 0 then (7 : Byte) else 0) o = (fun _ => 0) o) := by
  constructor
  · rintro x y ⟨hx, -⟩
    have hx : x < 3 := hx
    have h : ¬ (y * 4 + x) % 4 = 3 := by omega
    exact if_neg h
  · intro o h
    have h0 : o ≠ 0 := fun e => h 0 0 ⟨by decide, by decide⟩ e.symm
    simp [h0]

theorem test_witness_SweepOrderIndependent :
    good rig ∧ (sweepOps .median 3 3).reverse.Perm (sweepOps .median rig.geo.width rig.geo.height) :=
  ⟨by decide, List.reverse_perm _⟩

theorem test_witness_SweepCommandComputesSweep :
    good rig ∧ ¬ (geometry 4 3 3).geo.valid ∧
    ((geometry 3 101 1).geo.valid ∧ ¬ (geometry 3 101 1).geo.fits rig.bufCap.toNat) ∧
    (Instr.sweepMedian, Filt.median, 0x00000203#32) ∈
      [(Instr.sweepSharpen, Filt.sharpen, 0x00000003#32), (.sweepSobel, .sobel, 0x00000103#32),
        (.sweepMedian, .median, 0x00000203#32)] := by decide

theorem test_witness_RunStarts : good rig ∧ good (geometry 1 100 1) := by decide

theorem test_witness_RunComputesPipeline :
    good rig ∧ good (geometry 1 1 1) ∧ ¬ (geometry 4 3 3).geo.valid ∧
    ((geometry 3 101 1).geo.valid ∧ ¬ (geometry 3 101 1).geo.fits rig.bufCap.toNat) := by decide

theorem test_witness_RunStatusByStage :
    good rig ∧ get (·.busy) (exec .run rig) = some true ∧
    get State.status (steps 0 { rig with mode := .run, busy := true }) = some 0x00000001#32 := by decide

theorem test_witness_RunEqualsHandIssuedSequence : good rig := by decide

/-- Two A planes that differ outside the plane only, two different B planes. -/
theorem test_witness_PipelineDeterministic :
    (⟨3, 4, 3⟩ : Geometry).valid ∧
    (∀ x y, (⟨3, 4, 3⟩ : Geometry).inPlane x y →
      (fun o => if o % 4 = 3 then (1 : Byte) else 5) ((⟨3, 4, 3⟩ : Geometry).off x y) =
        (fun _ => 5) ((⟨3, 4, 3⟩ : Geometry).off x y)) ∧
    (∀ o, (∀ x y, (⟨3, 4, 3⟩ : Geometry).inPlane x y → (⟨3, 4, 3⟩ : Geometry).off x y ≠ o) →
      (fun o => if o = 0 then (7 : Byte) else 0) o = (fun _ => 0) o) := by
  refine ⟨by decide, ?_, test_witness_SweepProperties_inputs.2⟩
  rintro x y ⟨hx, -⟩
  have hx : x < 3 := hx
  have h : ¬ (y * 4 + x) % 4 = 3 := by omega
  exact if_neg h

theorem test_witness_PipelineBuffers :
    (⟨3, 4, 3⟩ : Geometry).valid ∧ (⟨3, 4, 3⟩ : Geometry).border 2 1 ∧ (⟨2, 4, 3⟩ : Geometry).valid ∧
    (⟨2, 4, 3⟩ : Geometry).width < 3 ∧ (⟨2, 4, 3⟩ : Geometry).inPlane 1 2 := by decide

theorem test_witness_PipelineBuffers_outside :
    ∀ x y, (⟨3, 4, 3⟩ : Geometry).inPlane x y → (⟨3, 4, 3⟩ : Geometry).off x y ≠ 3 := by
  rintro x y ⟨hx, -⟩
  have hx : x < 3 := hx
  show y * 4 + x ≠ 3
  omega

theorem test_witness_FlatFieldScenario : (0 < 10 ∧ 9 < 10) ∧ (1 = 1 ∧ 8 = 8) := by decide

/-- Every window has a sorted list of its samples. -/
theorem test_witness_MedianIsTheFifthOrderStatistic :
    [13, 20, 30, 40, 80, 90, 120, 140, 200].Perm win.toList ∧
    ([13, 20, 30, 40, 80, 90, 120, 140, 200] : List Byte).Pairwise (fun a b => a.toNat ≤ b.toNat) ∧
    ([13, 20, 30, 40, 80, 90, 120, 140, 200] : List Byte)[4]? = some 80 := by decide

/-- The threshold of the clamp: a window at each side of it. -/
theorem test_witness_RoundedRootIsNearest :
    64771 ≤ sobelM ⟨0, 0, 0, 0, 0, 117, 0, 49, 1⟩ ∧ sobelM ⟨0, 0, 0, 0, 0, 114, 0, 55, 1⟩ ≤ 64770 ∧
    roundedSqrt 2 = 1 := by decide

/-- Each clause of the register writes: dropped, ignored, stored. -/
theorem test_witness_RegisterWrites :
    (turn (.host (.regWrite 11 5))).agenda = [.host (.regWrite 11 5)] ∧
    ({ faulted with agenda := [.host (.regWrite 11 5)] } : State).fault = true ∧
    ({ sweeping 0 with agenda := [.host (.regWrite 1 5)] } : State).busy = true ∧
    11 ∈ [1, 4, 5, 6, 7, 8, 9, 10, 11] ∧ 15 ∈ [0, 2, 12, 13, 14, 15] ∧ 16 ≤ 16 ∧
    (turn (.host (.regWrite 11 5))).busy = false ∧ (turn (.host (.regWrite 11 5))).fault = false := by decide

/-- Each clause of the register reads: a busy read of PIX, a busy read of STATUS, an idle read of a reserved index. -/
theorem test_witness_RegisterReads :
    ({ sweeping 0 with agenda := [.host (.regRead 12)] } : State).agenda = [.host (.regRead 12)] ∧
    (sweeping 0).busy = true ∧ 12 ∈ [9, 10, 11, 12] ∧ 2 ∉ [9, 10, 11, 12] ∧
    (turn (.host (.regRead 16))).busy = false ∧
    get (·.replies) (step (turn (.host (.regRead 16)))) = some [.reg 0] ∧
    get (·.replies) (step (turn (.host (.regRead 15)))) = some [.reg 100] := by decide

/-- The busy clauses: a read and a write pending while the engine runs. -/
theorem test_witness_PlaneAccesses_busy :
    ({ sweeping 0 with agenda := [.host (.planeRead .b 99)] } : State).agenda = [.host (.planeRead .b 99)] ∧
    ({ sweeping 0 with agenda := [.host (.planeWrite .b 99 7)] } : State).agenda = [.host (.planeWrite .b 99 7)] ∧
    (sweeping 0).busy = true ∧ 99 < (sweeping 0).bufCap.toNat ∧
    get (·.draws) (step { sweeping 0 with agenda := [.host (.planeRead .b 99)] }) = some 1 := by decide

/-- Each clause of the plane accesses, at the last offset that exists and the first that does not. -/
theorem test_witness_PlaneAccesses :
    (turn (.host (.planeWrite .b 99 7))).agenda = [.host (.planeWrite .b 99 7)] ∧
    99 < rig.bufCap.toNat ∧ rig.bufCap.toNat ≤ 100 ∧ rig.busy = false ∧ rig.fault = false ∧
    (sweeping 0).busy = true ∧ faulted.fault = true ∧
    (turn (.host (.planeRead .b 99))).agenda = [.host (.planeRead .b 99)] ∧
    get (fun t => t.byte .b 99) (step (turn (.host (.planeWrite .b 99 7)))) = some 7 := by decide

theorem test_witness_ControlRegisterSoftReset :
    (turn (.host (.regWrite 3 0xFFFFFFFE))).agenda = [.host (.regWrite 3 0xFFFFFFFE)] ∧
    (0xFFFFFFFE : Word).getLsbD 0 = false ∧ (0x00000001 : Word).getLsbD 0 = true ∧ rig.busy = false ∧
    (sweeping 5).busy = true ∧ (turn (.host (.regRead 3))).agenda = [.host (.regRead 3)] := by decide

theorem test_witness_ControlRegisterSoftReset_busy :
    ({ running with agenda := [.host (.regWrite 3 1)] } : State).agenda = [.host (.regWrite 3 1)] ∧
    running.busy = true ∧ (1 : Word).getLsbD 0 = true ∧
    get (·.busy) (step { running with agenda := [.host (.regWrite 3 1)] }) = some false := by decide

theorem test_witness_HardResetClears :
    ({ running with agenda := [.hardReset] } : State).agenda = [.hardReset] := rfl

theorem test_witness_SetwinLoadsTheWindow : rig.busy = false ∧ rig.fault = false := by decide

/-- Four bytes for a plane of 2×2 with one to spare, too few for one of 5, and a plane that fills the buffer. -/
theorem test_witness_LoadAndStorePlane :
    rig.busy = false ∧ rig.fault = false ∧ (2 : Word).toNat * (2 : Word).toNat ≤ rig.bufCap.toNat ∧
    (loadPlane [1, 2, 3, 4, 5] 2 2 2).isSome = true ∧
    ([1, 2, 3, 4] : List Byte).length < (5 : Word).toNat * (1 : Word).toNat ∧
    (10 : Word).toNat * (10 : Word).toNat ≤ rig.bufCap.toNat := by decide

theorem test_witness_CommandsKeepGeometry :
    get (·.sel) (exec .swap rig) = some .b ∧ get (·.k) (engineStep (sweeping 0)) = some 1 ∧
    (sweeping 0).mode ≠ .run := by decide

theorem test_witness_RunningCommandIsIsolated :
    ({ sweeping 0 with agenda := [.host (.planeWrite .a 4 0)] } : State).busy = true ∧
    get (·.werr) (step { sweeping 0 with agenda := [.host (.planeWrite .a 4 0)] }) = some true ∧
    ¬ State.nextIsReset { sweeping 0 with agenda := [.host (.planeWrite .a 4 0)] } ∧
    get (·.k) (engineStep (sweeping 0)) = some 1 := by
  refine ⟨by decide, by decide, ?_, by decide⟩
  rintro (h | ⟨v, h, -⟩) <;> simp at h

theorem test_witness_InvariantIsKept :
    (sweeping 12).Inv ∧ get (·.busy) (step (sweeping 12)) = some false ∧
    running.Inv ∧ get (·.k) (step running) = some 15 := ⟨test_sweeping_inv, by decide, test_running_inv, by decide⟩

theorem test_witness_NoStepStops : running.Inv ∧ (sweeping 12).Inv ∧ faulted.Inv :=
  ⟨test_running_inv, test_sweeping_inv, test_faulted_inv⟩

theorem test_witness_SequencerFitsItsWidth : running.Inv ∧ running.k = 14 ∧ running.ops.length = 42 :=
  ⟨test_running_inv, by decide, by decide⟩

theorem test_witness_RunningCommandEnds_engine :
    running.Inv ∧ running.busy = true ∧ running.agenda = [] ∧ 27 < running.ops.length - running.k :=
  ⟨test_running_inv, by decide, by decide, by decide⟩

/-- Turns that are no resets; the last of them is the engine's, and there is one engine turn. -/
def mixed : List Turn := [.host (.planeWrite .a 0 9), .host (.regWrite 3 2), .host (.regRead 12), .engine]

theorem test_witness_RunningCommandEnds_mixed_turns :
    ∀ t ∈ mixed, t = .engine ∨ ∃ act, t = .host act ∧ ∀ v : Word, act = .regWrite 3 v → v.getLsbD 0 = false := by
  intro t ht
  simp only [mixed, List.mem_cons, List.not_mem_nil, or_false] at ht
  rcases ht with rfl | rfl | rfl | rfl
  · exact .inr ⟨_, rfl, by simp⟩
  · exact .inr ⟨_, rfl, by intro v h; cases h; decide⟩
  · exact .inr ⟨_, rfl, by simp⟩
  · exact .inl rfl

/-- One engine turn of 28 that are left, and one of the only one that is left. -/
theorem test_witness_RunningCommandEnds_mixed :
    ({ running with agenda := mixed ++ [.hardReset] } : State).Inv ∧ running.busy = true ∧
    mixed.count .engine < running.ops.length - running.k ∧
    ({ sweeping 12 with agenda := mixed ++ [.hardReset] } : State).Inv ∧ (sweeping 12).busy = true ∧
    mixed.count .engine = (sweeping 12).ops.length - (sweeping 12).k ∧ mixed.getLast? = some .engine :=
  ⟨{ test_running_inv with }, rfl, by decide, { test_sweeping_inv with }, rfl, by decide, by decide⟩

theorem test_witness_RunningCommandEnds_wait :
    ({ running with agenda := [.wait, .engine] } : State).Inv ∧
    ({ running with agenda := [.wait, .engine] } : State).agenda = .wait :: [.engine] ∧
    (turn .wait).Inv ∧ (turn .wait).agenda = .wait :: [] :=
  ⟨{ test_running_inv with }, rfl, { test_rig_inv with }, rfl⟩

/-- A run that ended well, one that ended badly, one that has not ended. -/
theorem test_witness_RunEndsWellOrBadly :
    rig.Inv ∧ ({ rig with done := true } : State).endedWell = true ∧ faulted.Inv ∧ faulted.endedBadly = true ∧
    running.Inv ∧ running.busy = true := ⟨test_rig_inv, by decide, test_faulted_inv, by decide, test_running_inv, rfl⟩

end Sys2Proof.Tests
end

section
/-!
PROOFS. Encoding (`30_encoding.md`): a command word stands for its three fields, the decoder is the table of R91 on
them, and the issue of a word that is no command raises IllegalCommand (R85, R171).
-/

namespace Sys2Proof

/-! ### Words and fields (R80, R81) -/

/-- A word is the packing of some fields exactly if those are the fields it shows (R80). -/
theorem eq_packFields_iff (c : Word) (f : Fields) : c = packFields f ↔ fieldsOf c = f := by
  constructor
  · rintro rfl
    exact fieldsOf_packFields f
  · rintro rfl
    exact (packFields_fieldsOf c).symm

theorem eq_encode_iff (c : Word) (i : Instr) : c = encode i ↔ fieldsOf c = encodeFields i :=
  eq_packFields_iff c (encodeFields i)

theorem encodeFields_zero (i : Instr) : (encodeFields i).zero = 0 := by cases i <;> rfl

/-! ### The decoder (R91) -/

theorem decode_of_zero {c : Word} (h : (fieldsOf c).zero = 0) :
    decode c = decodeOpcFn (fieldsOf c).opc (fieldsOf c).fn := if_pos h

theorem decode_of_zero_ne {c : Word} (h : (fieldsOf c).zero ≠ 0) : decode c = .illegal .zeroFieldNonzero := if_neg h

/-- The decoder's table on (OPC, FN) is the inverse of the columns OPC and FN of R84. -/
theorem decodeOpcFn_eq_instr_iff (opc : BitVec 8) (fn : BitVec 2) (i : Instr) :
    decodeOpcFn opc fn = .instr i ↔ (⟨0, fn, opc⟩ : Fields) = encodeFields i := by
  constructor
  · intro h
    unfold decodeOpcFn at h
    split at h <;> cases h <;> rfl
  · intro h
    cases i <;> cases h <;> rfl

/-- The decoder answers a command exactly on the fields of that command (R91). -/
theorem decode_eq_instr_iff_fields (c : Word) (i : Instr) :
    decode c = .instr i ↔ fieldsOf c = encodeFields i := by
  by_cases hz : (fieldsOf c).zero = 0
  · have hf : fieldsOf c = ⟨0, (fieldsOf c).fn, (fieldsOf c).opc⟩ := by rw [← hz]
    rw [decode_of_zero hz, decodeOpcFn_eq_instr_iff, ← hf]
  · have hne : fieldsOf c ≠ encodeFields i := fun h => hz (h ▸ encodeFields_zero i)
    simp [decode_of_zero_ne hz, hne]

/-- Each command has one word, and no other word is that command (R84). -/
theorem decode_eq_instr_iff (c : Word) (i : Instr) : decode c = .instr i ↔ c = encode i :=
  (decode_eq_instr_iff_fields c i).trans (eq_encode_iff c i).symm

theorem decode_packFields_eq_instr_iff (f : Fields) (i : Instr) :
    decode (packFields f) = .instr i ↔ f = encodeFields i := by
  rw [decode_eq_instr_iff_fields, fieldsOf_packFields]

/-- The rows of R91 in numbers: OPC, FN and the command. -/
def decoderRows : List (Nat × Nat × Instr) :=
  [(0x00, 0, .nop), (0x01, 0, .sample), (0x02, 0, .filtSharpen), (0x02, 1, .filtSobel), (0x02, 2, .filtMedian),
   (0x03, 0, .sweepSharpen), (0x03, 1, .sweepSobel), (0x03, 2, .sweepMedian), (0x04, 0, .swap), (0x05, 0, .run)]

/-- The rows are the fields of the commands, read as numbers. -/
theorem mem_decoderRows_iff (o n : Nat) (i : Instr) :
    (o, n, i) ∈ decoderRows ↔ o = (encodeFields i).opc.toNat ∧ n = (encodeFields i).fn.toNat := by
  cases i <;> simp [decoderRows, encodeFields]

theorem eq_encodeFields_iff_row (f : Fields) (i : Instr) :
    f = encodeFields i ↔ f.zero = 0 ∧ (f.opc.toNat, f.fn.toNat, i) ∈ decoderRows := by
  rw [mem_decoderRows_iff, BitVec.toNat_inj, BitVec.toNat_inj]
  constructor
  · rintro rfl
    exact ⟨encodeFields_zero i, rfl, rfl⟩
  · obtain ⟨zero, fn, opc⟩ := f
    rintro ⟨rfl, rfl, rfl⟩
    rw [← encodeFields_zero i]

/-! ### Illegal words (R85) -/

/-- A word is called illegal by the decoder exactly if it is no command's word. -/
theorem exists_decode_eq_illegal_iff (c : Word) : (∃ why, decode c = .illegal why) ↔ ∀ i, c ≠ encode i := by
  simp only [ne_eq, ← decode_eq_instr_iff]
  cases decode c <;> simp

/-- An opcode of 0x06 and above is undefined, whatever FN is. -/
theorem decodeOpcFn_of_six_le {opc : BitVec 8} (fn : BitVec 2) (h : 6 ≤ opc.toNat) :
    decodeOpcFn opc fn = .illegal .opcUndefined := by
  unfold decodeOpcFn
  split
  case h_17 => rfl
  all_goals exact absurd h (by decide)

theorem fn_cases (fn : BitVec 2) : fn = 0 ∨ fn = 1 ∨ fn = 2 ∨ fn = 3 := by
  revert fn; decide

/-- FILT and SWEEP: FN = 3 is reserved. -/
theorem decodeOpcFn_filter_illegal_iff {opc : BitVec 8} (fn : BitVec 2) (h : opc = 0x02 ∨ opc = 0x03) :
    (∃ why, decodeOpcFn opc fn = .illegal why) ↔ fn = 3 := by
  rcases h with rfl | rfl <;> rcases fn_cases fn with rfl | rfl | rfl | rfl <;> simp [decodeOpcFn]

/-- The commands without a filter: FN is unused and must be 0. -/
theorem decodeOpcFn_plain_illegal_iff {opc : BitVec 8} (fn : BitVec 2) (h : opc ∈ [0x00#8, 0x01#8, 0x04#8, 0x05#8]) :
    (∃ why, decodeOpcFn opc fn = .illegal why) ↔ fn ≠ 0 := by
  simp only [List.mem_cons, List.not_mem_nil, or_false] at h
  rcases h with rfl | rfl | rfl | rfl <;> rcases fn_cases fn with rfl | rfl | rfl | rfl <;> simp [decodeOpcFn]

theorem opc_cases (opc : BitVec 8) :
    6 ≤ opc.toNat ∨ (opc = 0x02 ∨ opc = 0x03) ∨ opc ∈ [0x00#8, 0x01#8, 0x04#8, 0x05#8] := by
  simp only [List.mem_cons, List.not_mem_nil, or_false]
  bv_omega

/-- The last three of the four cases of R85, on OPC and FN. -/
theorem exists_decodeOpcFn_eq_illegal_iff (opc : BitVec 8) (fn : BitVec 2) :
    (∃ why, decodeOpcFn opc fn = .illegal why) ↔
      6 ≤ opc.toNat ∨ (fn = 3 ∧ (opc = 0x02 ∨ opc = 0x03)) ∨
        (fn ≠ 0 ∧ opc ∈ [0x00#8, 0x01#8, 0x04#8, 0x05#8]) := by
  rcases opc_cases opc with hundefined | hfilter | hplain
  · exact iff_of_true ⟨_, decodeOpcFn_of_six_le fn hundefined⟩ (.inl hundefined)
  · rw [decodeOpcFn_filter_illegal_iff fn hfilter]
    rcases hfilter with rfl | rfl <;> simp
  · rw [decodeOpcFn_plain_illegal_iff fn hplain]
    simp only [List.mem_cons, List.not_mem_nil, or_false] at hplain
    rcases hplain with rfl | rfl | rfl | rfl <;> simp

/-- The four cases of R85 are the words that are no command's word. -/
theorem forall_ne_encode_iff (c : Word) :
    (∀ i, c ≠ encode i) ↔
      (fieldsOf c).zero ≠ 0 ∨ 6 ≤ (fieldsOf c).opc.toNat ∨
        ((fieldsOf c).fn = 3 ∧ ((fieldsOf c).opc = 0x02 ∨ (fieldsOf c).opc = 0x03)) ∨
        ((fieldsOf c).fn ≠ 0 ∧ (fieldsOf c).opc ∈ [0x00#8, 0x01#8, 0x04#8, 0x05#8]) := by
  rw [← exists_decode_eq_illegal_iff]
  by_cases hz : (fieldsOf c).zero = 0
  · rw [decode_of_zero hz, exists_decodeOpcFn_eq_illegal_iff]
    exact (or_iff_right (not_not_intro hz)).symm
  · exact iff_of_true ⟨_, decode_of_zero_ne hz⟩ (.inl hz)

namespace Machine

/-! ### The issue of an illegal word (R90, R171) -/

theorem step_of_agenda_host {s : State} {act : HostAct} {rest : List Turn} (h : s.agenda = .host act :: rest) :
    step s = hostAccess { s with agenda := rest } act := by
  simp only [step, takeTurn, h]

/-- A write to register 1 is the issue of a command (R30). -/
theorem hostAccess_regWrite_cmd (s : State) (c : Word) : hostAccess s (.regWrite 1 c) = issueCommand s c := rfl

theorem issueCommand_illegal {s : State} {c : Word} {why : IllegalWord} (hb : s.busy = false) (hf : s.fault = false)
    (hw : decode c = .illegal why) : issueCommand s c = .next (raise (.illegalCommand c) s.accept) := by
  simp [issueCommand, State.locked, hb, hf, hw]

end Machine

/-! ### The obligations -/

/-- Settles O1: the ten words by evaluation, the rest because packing and reading the fields are inverse. -/
theorem legalWordsAreExactlyTen : Obligations.LegalWordsAreExactlyTen :=
  ⟨rfl, rfl, rfl, rfl, rfl, rfl, rfl, rfl, rfl, rfl, decode_eq_instr_iff⟩

/-- Settles O2: the word shows the three fields it is made of, and the rows of the decoder are the commands' fields. -/
theorem decoderFollowsItsTable : Obligations.DecoderFollowsItsTable := fun zero fn opc i =>
  (decode_packFields_eq_instr_iff ⟨zero, fn, opc⟩ i).trans (eq_encodeFields_iff_row ⟨zero, fn, opc⟩ i)

/-- Settles O4: the four cases of R85 are where the decoder answers `illegal`, and the issue of such a word takes the
fault of R171. -/
theorem illegalWordRaisesIllegalCommand : Obligations.IllegalWordRaisesIllegalCommand := by
  intro s c rest hagenda hbusy hfault
  refine ⟨forall_ne_encode_iff c, fun hne => ?_⟩
  obtain ⟨why, hwhy⟩ := (exists_decode_eq_illegal_iff c).mpr hne
  rw [Machine.step_of_agenda_host hagenda, Machine.hostAccess_regWrite_cmd,
    Machine.issueCommand_illegal (s := { s with agenda := rest }) hbusy hfault hwhy]
  rfl

end Sys2Proof
end

section
/-!
PROOFS. The neighborhood sampler (`40_sampler.md`): the nine samples of a window in row-major kernel order (R100), and
the four outcomes of SAMPLE (R101).
-/

namespace Sys2Proof.Machine

/-! ### The sampling function (R100, R102) -/

/-- A window holds the samples at the nine offsets, in the order in which the sampler reads them. -/
theorem toList_of_sample_eq_some {buf : Nat → Byte} {stride x y : Nat} {n : Window}
    (h : sample buf stride x y = some n) : n.toList = (windowOffsets stride x y).map buf := by
  unfold sample at h
  split at h <;> cases h
  rfl

/-- The nine offsets are those of the 3×3 kernel positions, row by row. -/
theorem windowOffsets_eq_flatMap {stride x y : Nat} (hx : 1 ≤ x) (hy : 1 ≤ y) :
    windowOffsets stride x y =
      (List.range 3).flatMap fun r => (List.range 3).map fun c => (y + r - 1) * stride + (x + c - 1) := by
  obtain ⟨x, rfl⟩ := Nat.exists_eq_add_of_le' hx
  obtain ⟨y, rfl⟩ := Nat.exists_eq_add_of_le' hy
  rfl

theorem exists_sample {buf : Nat → Byte} {stride x y : Nat} (hx : 1 ≤ x) (hy : 1 ≤ y) :
    ∃ n, sample buf stride x y = some n :=
  Option.isSome_iff_exists.mp (sample_isSome.mpr ⟨hx, hy⟩)

theorem sample_eq_none {buf : Nat → Byte} {stride x y : Nat} (h : x = 0 ∨ y = 0) : sample buf stride x y = none :=
  if_neg (by omega)

theorem Geometry.window_eq_sample {g : Geometry} {buf : Nat → Byte} {x y : Nat} (h : g.interior x y) :
    g.window buf x y = sample buf g.stride x y := if_pos h

/-! ### The command SAMPLE (R101, R186) -/

theorem State.sampleTrap_of_geometryTrap {s : State} {t : Trap} (h : s.geometryTrap = some t) :
    s.sampleTrap = some t := by
  simp only [State.sampleTrap, h]

theorem State.sampleTrap_nonInterior {s : State} (hv : s.geo.valid) (hf : s.geo.fits s.bufCap.toNat)
    (hi : ¬ s.geo.interior s.x.toNat s.y.toNat) : s.sampleTrap = some .nonInterior := by
  have hpassed : s.geometryTrap = none := State.geometryTrap_eq_none.mpr ⟨hv, hf⟩
  simp only [State.sampleTrap, hpassed]
  exact if_pos hi

theorem exec_sample_of_trap {s : State} {t : Trap} (h : s.sampleTrap = some t) :
    exec .sample s = .next (raise t s.accept) := by
  simp only [exec, execSample, h]

theorem exec_sample_of_window {s : State} {n : Window} (hpassed : s.sampleTrap = none)
    (hn : s.readWindow s.sel s.x.toNat s.y.toNat = some n) :
    exec .sample s = .next { s.accept with w := n }.finish := by
  simp only [exec, execSample, hpassed, hn]

end Sys2Proof.Machine

namespace Sys2Proof
open Machine

/-! ### The obligations -/

/-- Settles O13: once the checks have passed, all nine offsets exist and the window is read whole; each failed check is
the trap that is raised. -/
theorem sampleLoadsWindow : Obligations.SampleLoadsWindow := by
  refine ⟨rfl, fun s => ⟨fun hv hf hi => ?loads, fun hv => ?invalid, fun hv hf => ?tooLarge,
    fun hv hf hi => ?offInterior⟩⟩
  case loads =>
    obtain ⟨n, hsample, hread⟩ := State.readWindow_interior (slot := s.sel) hv hf hi
    exact ⟨n, hsample, exec_sample_of_window (State.sampleTrap_eq_none.mpr ⟨hv, hf, hi⟩) hread⟩
  case invalid =>
    exact exec_sample_of_trap (State.sampleTrap_of_geometryTrap (State.geometryTrap_invalid hv))
  case tooLarge =>
    exact exec_sample_of_trap (State.sampleTrap_of_geometryTrap (State.geometryTrap_tooLarge hv hf))
  case offInterior => exact exec_sample_of_trap (State.sampleTrap_nonInterior hv hf hi)

/-- Settles O12: the window lists the samples at the nine offsets, which are in row-major order; off the interior there
is no window. -/
theorem sampleIsRowMajor : Obligations.SampleIsRowMajor := by
  refine ⟨fun buf stride x y hx hy => ?_, fun _ _ _ _ => sample_eq_none,
    fun _ _ _ _ => ⟨Geometry.window_eq_sample, Geometry.window_eq_none⟩, fun _ _ _ _ => State.readWindow_eq_none⟩
  obtain ⟨n, hn⟩ := exists_sample (buf := buf) (stride := stride) hx hy
  refine ⟨n, hn, ?_⟩
  rw [toList_of_sample_eq_some hn, windowOffsets_eq_flatMap hx hy, List.map_flatMap]
  simp only [List.map_map, Function.comp_def]

end Sys2Proof
end

section
/-!
PROOFS. The filters (`41_filters.md`): the integer computations are the real formulas, clamped and rounded (R110 to
R117), the median is the fifth order statistic (R119, R120), and FILT writes the filter's result (R113, R118, R121).
-/

namespace Sys2Proof.Machine

/-! ### The commands FILT (R113, R118, R121) -/

theorem filtCommand_eq (fn : Filt) (s : State) :
    filtCommand fn s = { s with pix := filterFn fn s.w, done := true } := rfl

theorem exec_filtSharpen (s : State) : exec .filtSharpen s = .next (filtCommand .sharpen s) := rfl

theorem exec_filtSobel (s : State) : exec .filtSobel s = .next (filtCommand .sobel s) := rfl

theorem exec_filtMedian (s : State) : exec .filtMedian s = .next (filtCommand .median s) := rfl

/-! ### Clamping and rounding half up

Both bounds of the clamp are integers, so rounding before the clamp or after it is the same. -/

section Rounding

variable {α : Type} [Field α] [LinearOrder α] [IsStrictOrderedRing α] [FloorRing α]

theorem floor_intCast_add_half (k : ℤ) : ⌊(k : α) + 1 / 2⌋ = k := by
  rw [Int.floor_intCast_add, show ⌊(1 / 2 : α)⌋ = 0 by rw [Int.floor_eq_zero_iff]; norm_num, add_zero]

theorem floor_add_half_mono : Monotone fun x : α => ⌊x + 1 / 2⌋ :=
  fun _ _ h => Int.floor_mono (add_le_add_left h _)

theorem floor_min_intCast_add_half (x : α) (k : ℤ) : ⌊min x k + 1 / 2⌋ = min ⌊x + 1 / 2⌋ k :=
  (floor_add_half_mono.map_min).trans (congrArg _ (floor_intCast_add_half k))

theorem floor_max_intCast_add_half (x : α) (k : ℤ) : ⌊max x k + 1 / 2⌋ = max ⌊x + 1 / 2⌋ k :=
  (floor_add_half_mono.map_max).trans (congrArg _ (floor_intCast_add_half k))

end Rounding

theorem clampInt_eq_min_max {lo hi : Int} (v : Int) (h : lo ≤ hi) : clampInt v lo hi = min (max v lo) hi := by
  unfold clampInt
  split
  · omega
  · split <;> omega

theorem floor_half_add_half (t : Int) : ⌊(t : ℚ) / 2 + 1 / 2⌋ = (t + 1) / 2 := by
  have hsum : (t : ℚ) / 2 + 1 / 2 = ((t + 1 : Int) : ℚ) / (2 : ℕ) := by push_cast; ring
  rw [hsum, Rat.floor_intCast_div_natCast]
  rfl

/-- Clamping the real sum t/2 and then rounding it is R112's integer computation. -/
theorem floor_clamp_half (t : Int) :
    ⌊min (max ((t : ℚ) / 2) 0) 255 + 1 / 2⌋ = clampInt ((t + 1) / 2) 0 255 := by
  have hmin := floor_min_intCast_add_half (max ((t : ℚ) / 2) 0) 255
  have hmax := floor_max_intCast_add_half ((t : ℚ) / 2) 0
  push_cast at hmin hmax
  rw [hmin, hmax, floor_half_add_half, clampInt_eq_min_max _ (by decide)]

/-! ### Sharpen (R110 to R112) -/

/-- The kernel's weighted sum is half of R112's `t`. -/
theorem sharpen_weightedSum (n : Window) :
    (List.zipWith (fun (k : ℚ) (v : Byte) => k * (v.toNat : ℚ))
      [0, -1/2, 0, -1/2, 3, -1/2, 0, -1/2, 0] n.toList).sum = (sharpenT n : ℚ) / 2 := by
  simp only [Window.toList, List.zipWith_cons_cons, List.zipWith_nil_left, List.sum_cons, List.sum_nil, sharpenT]
  push_cast
  ring

theorem sharpen_diagonals (n : Window) (a b c d : Byte) :
    sharpen { n with tl := a, tr := b, bl := c, br := d } = sharpen n := rfl

theorem sharpen_flat (v : Byte) : sharpen ⟨v, v, v, v, v, v, v, v, v⟩ = v := by
  have hbound := v.isLt
  have ht : sharpenT ⟨v, v, v, v, v, v, v, v, v⟩ = 2 * v.toNat := by simp only [sharpenT]; omega
  have hval := sharpen_toNat ⟨v, v, v, v, v, v, v, v, v⟩
  rw [ht, clampInt_eq_min_max _ (by decide)] at hval
  exact BitVec.eq_of_toNat_eq (by omega)

/-- A black centre stays black: no neighbor has a positive weight. -/
theorem sharpen_centre_zero {n : Window} (h : n.mc = 0) : sharpen n = 0 := by
  have ht : sharpenT n ≤ 0 := by
    have hmc : n.mc.toNat = 0 := by rw [h]; rfl
    simp only [sharpenT]
    omega
  have hval := sharpen_toNat n
  rw [clampInt_eq_min_max _ (by decide)] at hval
  have hzero : (sharpen n).toNat = 0 := by omega
  exact BitVec.eq_of_toNat_eq hzero

/-! ### The gradient sums (R114, R115) -/

theorem sobelX_eq_weightedSum (n : Window) :
    sobelX n = (List.zipWith (fun (k : Int) (v : Byte) => k * (v.toNat : Int))
      [-1, 0, 1, -2, 0, 2, -1, 0, 1] n.toList).sum := by
  simp only [Window.toList, List.zipWith_cons_cons, List.zipWith_nil_left, List.sum_cons, List.sum_nil, sobelX]
  ring

theorem sobelY_eq_weightedSum (n : Window) :
    sobelY n = (List.zipWith (fun (k : Int) (v : Byte) => k * (v.toNat : Int))
      [-1, -2, -1, 0, 0, 0, 1, 2, 1] n.toList).sum := by
  simp only [Window.toList, List.zipWith_cons_cons, List.zipWith_nil_left, List.sum_cons, List.sum_nil, sobelY]
  ring

/-- The positive weights of a kernel sum to 4, and so do the negative ones. -/
theorem weighted_difference_bounds (a b c d e f : Byte) :
    |((a.toNat : Int) + 2 * b.toNat + c.toNat) - (d.toNat + 2 * e.toNat + f.toNat)| ≤ 1020 := by
  rw [abs_le]
  omega

theorem abs_sobelX_le (n : Window) : |sobelX n| ≤ 1020 := weighted_difference_bounds _ _ _ _ _ _

theorem abs_sobelY_le (n : Window) : |sobelY n| ≤ 1020 := weighted_difference_bounds _ _ _ _ _ _

/-- The sum of squares is not negative, so `sobelM` loses nothing as a natural number. -/
theorem sobelM_cast (n : Window) : (sobelM n : Int) = sobelX n * sobelX n + sobelY n * sobelY n :=
  Int.toNat_of_nonneg (add_nonneg (mul_self_nonneg _) (mul_self_nonneg _))

theorem sobelM_le (n : Window) : sobelM n ≤ 2080800 := by
  have hx : sobelX n * sobelX n ≤ 1020 * 1020 := abs_le_iff_mul_self_le.mp (abs_sobelX_le n)
  have hy : sobelY n * sobelY n ≤ 1020 * 1020 := abs_le_iff_mul_self_le.mp (abs_sobelY_le n)
  have hm := sobelM_cast n
  omega

theorem sobelM_centre (n : Window) (v : Byte) : sobelM { n with mc := v } = sobelM n := rfl

theorem sobel_centre (n : Window) (v : Byte) : sobel { n with mc := v } = sobel n := rfl

/-! ### The rounded square root (R116, R117) -/

/-- `q = roundedSqrt m` is the integer around which m lies: q² - q < m ≤ q² + q. -/
theorem roundedSqrt_spec (m : Nat) :
    (0 < roundedSqrt m → roundedSqrt m * roundedSqrt m < m + roundedSqrt m) ∧
      m ≤ roundedSqrt m * roundedSqrt m + roundedSqrt m := by
  obtain ⟨hlo, hhi⟩ := isqrt_spec m
  unfold roundedSqrt
  generalize isqrt m = r at *
  obtain ⟨d, rfl⟩ := Nat.exists_eq_add_of_le hlo
  rw [Nat.add_sub_cancel_left]
  have hsucc : (r + 1) * (r + 1) = r * r + 2 * r + 1 := by ring
  split
  case isTrue hup => exact ⟨fun _ => by omega, by omega⟩
  case isFalse hdown => exact ⟨fun _ => by omega, by omega⟩

/-- R117's `q` is the real square root rounded half up. -/
theorem floor_sqrt_add_half (m : Nat) : ⌊√(m : ℝ) + 1 / 2⌋ = (roundedSqrt m : Int) := by
  obtain ⟨hlo, hhi⟩ := roundedSqrt_spec m
  generalize roundedSqrt m = q at *
  have hhi' : (m : ℝ) ≤ q * q + q := by exact_mod_cast hhi
  rw [Int.floor_eq_iff, Int.cast_natCast]
  constructor
  · rcases Nat.eq_zero_or_pos q with rfl | hq
    · rw [Nat.cast_zero]
      positivity
    · have hlo' : (q : ℝ) * q + 1 ≤ m + q := by exact_mod_cast hlo hq
      have : (q : ℝ) - 1 / 2 ≤ √m := Real.le_sqrt_of_sq_le (by nlinarith)
      linarith
  · have : √(m : ℝ) < q + 1 / 2 := (Real.sqrt_lt' (by positivity)).mpr (by nlinarith)
    linarith

theorem roundedSqrt_mul_self (k : Nat) : roundedSqrt (k * k) = k := by
  have hfloor := floor_sqrt_add_half (k * k)
  rw [Nat.cast_mul, Real.sqrt_mul_self k.cast_nonneg] at hfloor
  exact_mod_cast hfloor.symm.trans (floor_intCast_add_half (α := ℝ) k)

/-- Clamping the real root and then rounding it is R117's integer computation. -/
theorem floor_clamp_sqrt (m : Nat) : ⌊min √(m : ℝ) 255 + 1 / 2⌋ = (min (roundedSqrt m) 255 : Nat) := by
  have hmin := floor_min_intCast_add_half √(m : ℝ) 255
  push_cast at hmin ⊢
  rw [hmin, floor_sqrt_add_half]

/-- A vertical edge of height h between the columns has gradient (4h, 0). -/
theorem sobelM_step {v h : Byte} (hsum : v.toNat + h.toNat < 256) :
    sobelM ⟨v, v, v + h, v, v, v + h, v, v, v + h⟩ = 4 * h.toNat * (4 * h.toNat) := by
  have hadd : (v + h).toNat = v.toNat + h.toNat := BitVec.toNat_add_of_lt hsum
  have hm := sobelM_cast ⟨v, v, v + h, v, v, v + h, v, v, v + h⟩
  simp only [sobelX, sobelY, hadd] at hm
  zify at hm ⊢
  rw [hm]
  ring

theorem sobel_step {v h : Byte} (hsum : v.toNat + h.toNat < 256) :
    (sobel ⟨v, v, v + h, v, v, v + h, v, v, v + h⟩).toNat = min (4 * h.toNat) 255 := by
  rw [sobel_toNat, sobelM_step hsum, roundedSqrt_mul_self]

/-- A flat window is an edge of height 0. -/
theorem sobel_flat (v : Byte) : sobel ⟨v, v, v, v, v, v, v, v, v⟩ = 0 := by
  have hstep := sobel_step (v := v) (h := 0#8) v.isLt
  rw [BitVec.add_zero] at hstep
  exact BitVec.eq_of_toNat_eq hstep

/-! ### The median (R119, R120) -/

/-- Non-decreasing order (R120). -/
abbrev Ascending (l : List Byte) : Prop := l.Pairwise (fun a b => a.toNat ≤ b.toNat)

theorem sortSamples_ascending (l : List Byte) : Ascending (sortSamples l) :=
  haveI : Std.Total (fun a b : Byte => a.toNat ≤ b.toNat) := ⟨fun a b => Nat.le_total a.toNat b.toNat⟩
  haveI : IsTrans Byte (fun a b => a.toNat ≤ b.toNat) := ⟨fun _ _ _ => Nat.le_trans⟩
  List.pairwise_insertionSort _ l

/-- There is only one non-decreasing arrangement of a list of samples. -/
theorem eq_sortSamples {l m : List Byte} (hp : l.Perm m) (hl : Ascending l) : l = sortSamples m :=
  (hp.trans (sortSamples_perm m).symm).eq_of_pairwise
    (fun _ _ _ _ hab hba => BitVec.eq_of_toNat_eq (Nat.le_antisymm hab hba)) hl (sortSamples_ascending m)

theorem sortSamples_getElem?_four (n : Window) : (sortSamples n.toList)[4]? = some (median n) := by
  simp [median, List.getD_eq_getElem?_getD]

/-- Index 4 of any non-decreasing arrangement of the nine samples is the median (R120). -/
theorem getElem?_four_of_ascending {n : Window} {l : List Byte} (hp : l.Perm n.toList) (hl : Ascending l) :
    l[4]? = some (median n) := by
  rw [eq_sortSamples hp hl, sortSamples_getElem?_four]

theorem median_eq_of_ascending {n : Window} {l : List Byte} {v : Byte} (hp : n.toList.Perm l) (hl : Ascending l)
    (hv : l[4]? = some v) : median n = v :=
  Option.some.inj ((getElem?_four_of_ascending hp.symm hl).symm.trans hv)

theorem median_mem (n : Window) : median n ∈ n.toList :=
  (sortSamples_perm _).mem_iff.mp (List.mem_of_getElem? (sortSamples_getElem?_four n))

/-- In a non-decreasing list, at most i samples are below w exactly if the sample at index i is not. -/
theorem countP_lt_le_iff {l : List Byte} (hl : Ascending l) {i : Nat} {a : Byte} (ha : l[i]? = some a) (w : Nat) :
    l.countP (fun b => b.toNat < w) ≤ i ↔ w ≤ a.toNat := by
  induction l generalizing i with
  | nil => cases ha
  | cons b l ih =>
    obtain ⟨hhead, htail⟩ := List.pairwise_cons.mp hl
    by_cases hb : b.toNat < w
    · rw [List.countP_cons_of_pos (by simpa using hb)]
      cases i with
      | zero => cases ha; omega
      | succ i => rw [Nat.add_le_add_iff_right, ih htail ha]
    · have hnone : (b :: l).countP (fun b => b.toNat < w) = 0 := by
        simp only [List.countP_eq_zero, List.forall_mem_cons, decide_eq_true_eq]
        exact ⟨hb, fun c hc => by have := hhead c hc; omega⟩
      have hba : b.toNat ≤ a.toNat := by
        rcases List.mem_cons.mp (List.mem_of_getElem? ha) with rfl | hmem
        · exact le_rfl
        · exact hhead a hmem
      omega

theorem countP_below_le_four_iff (n : Window) (w : Nat) :
    n.toList.countP (fun a => a.toNat < w) ≤ 4 ↔ w ≤ (median n).toNat := by
  rw [← (sortSamples_perm n.toList).countP_eq]
  exact countP_lt_le_iff (sortSamples_ascending _) (sortSamples_getElem?_four n) w

/-- At most four of nine are above v exactly if more than four are not above it. -/
theorem countP_above_le_four_iff (n : Window) (v : Nat) :
    n.toList.countP (fun a => v < a.toNat) ≤ 4 ↔ (median n).toNat ≤ v := by
  have hsplit := n.toList.length_eq_countP_add_countP (fun a => a.toNat < v + 1)
  have habove : n.toList.countP (fun a => ¬ decide (a.toNat < v + 1)) = n.toList.countP (fun a => v < a.toNat) :=
    List.countP_congr fun a _ => by simp
  have hbelow := countP_below_le_four_iff n (v + 1)
  rw [Window.toList_length] at hsplit
  omega

theorem eq_median_iff (n : Window) (v : Byte) :
    v = median n ↔ n.toList.countP (fun a => a.toNat < v.toNat) ≤ 4 ∧
      n.toList.countP (fun a => v.toNat < a.toNat) ≤ 4 := by
  rw [countP_below_le_four_iff, countP_above_le_four_iff, ← BitVec.toNat_inj]
  omega

end Sys2Proof.Machine

namespace Sys2Proof
open Machine

/-! ### The obligations -/

/-- Settles O39: the weighted sum is t/2, and rounding the clamped half is the clamp of floor((t + 1)/2). -/
theorem sharpenIsTheRealFormula : Obligations.SharpenIsTheRealFormula := by
  refine ⟨fun n => ?_, by norm_num, sharpen_diagonals⟩
  rw [sharpen_weightedSum, floor_clamp_half, sharpen_toNat]

/-- Settles O40: the bounds come from the weights, four of each sign. -/
theorem sobelGradients : Obligations.SobelGradients := by
  intro n
  obtain ⟨hxlo, hxhi⟩ := abs_le.mp (abs_sobelX_le n)
  obtain ⟨hylo, hyhi⟩ := abs_le.mp (abs_sobelY_le n)
  exact ⟨sobelX_eq_weightedSum n, sobelY_eq_weightedSum n, hxlo, hxhi, hylo, hyhi, sobelM_cast n, sobelM_le n,
    (sobelM_le n).trans_lt (by norm_num), sobelM_centre n⟩

/-- Settles O41: `roundedSqrt` is the rounded real root, and the clamp commutes with the rounding. -/
theorem sobelIsTheRealFormula : Obligations.SobelIsTheRealFormula := by
  intro n
  have hm : ((sobelX n ^ 2 + sobelY n ^ 2 : Int) : ℝ) = (sobelM n : ℝ) := by
    rw [sq, sq, ← sobelM_cast, Int.cast_natCast]
  rw [hm, floor_clamp_sqrt, sobel_toNat]

/-- Settles O43: a list has one non-decreasing arrangement, and the counts below and above compare v with its index 4. -/
theorem medianIsTheFifthOrderStatistic : Obligations.MedianIsTheFifthOrderStatistic := by
  refine fun n => ⟨fun _ => getElem?_four_of_ascending, fun v => ?_⟩
  rw [← eq_median_iff]
  exact (and_iff_right_of_imp fun hv => hv ▸ median_mem n).symm

/-- Settles O9: the flat window, the diagonals and the black centre for every value; the examples by evaluation. -/
theorem filtSharpenWritesPix : Obligations.FiltSharpenWritesPix := by
  refine ⟨rfl, fun s => ?_, sharpen_flat, sharpen_diagonals, fun _ => sharpen_centre_zero, by decide⟩
  rw [exec_filtSharpen, filtCommand_eq]
  rfl

/-- Settles O10: the step edge has gradient (4h, 0), a flat window is a step of height 0; the examples by evaluation. -/
theorem filtSobelWritesPix : Obligations.FiltSobelWritesPix := by
  refine ⟨rfl, fun s => ?_, sobel_flat, fun v n => sobel_centre n v, fun _ _ => sobel_step, by decide⟩
  rw [exec_filtSobel, filtCommand_eq]
  rfl

/-- Settles O11: each corner case is index 4 of a non-decreasing arrangement. -/
theorem filtMedianWritesPix : Obligations.FiltMedianWritesPix := by
  refine ⟨rfl, fun s => ?_, fun v => ?_, fun n hp => ?_, fun n hp => ?_, fun n hp => ?_, by decide, by decide⟩
  · rw [exec_filtMedian, filtCommand_eq]
    rfl
  · exact median_eq_of_ascending (.refl _) (by simp [Window.toList]) rfl
  all_goals exact median_eq_of_ascending hp (by decide) rfl

end Sys2Proof
end

section
/-!
PROOFS. The image plane processor (`42_plane_processor.md`): the micro-op list of a sweep is one micro-op for every
in-plane coordinate, each writes the sweep's value of its own sample, and so the whole list, in any order, ends with the
sweep in the output slot (R135 to R138); a SWEEP command is its two checks followed by that list (R139 to R141).
-/

namespace Sys2Proof.Machine

/-! ### The micro-op list (R135) -/

/-- The interior pass with the 1-based ranges of R135. -/
theorem interiorOps_eq_range' (fn : Filt) (wd ht : Nat) :
    interiorOps fn wd ht =
      (List.range' 1 (ht - 2)).flatMap fun y => (List.range' 1 (wd - 2)).map fun x => .pixel fn x y := by
  simp only [interiorOps, List.range'_eq_map_range, List.flatMap_map, List.map_map, Function.comp_def, Nat.add_comm 1]

theorem length_interiorOps (fn : Filt) (wd ht : Nat) : (interiorOps fn wd ht).length = (wd - 2) * (ht - 2) := by
  simp [interiorOps, List.length_flatMap, Nat.mul_comm]

theorem length_borderOps (wd ht : Nat) : (borderOps wd ht).length = 2 * wd + 2 * ht := by
  simp [borderOps, List.length_flatMap, Nat.mul_comm]

theorem length_sweepOps (fn : Filt) (wd ht : Nat) :
    (sweepOps fn wd ht).length = (wd - 2) * (ht - 2) + (2 * wd + 2 * ht) := by
  rw [sweepOps, List.length_append, length_interiorOps, length_borderOps]

theorem sweepOps_ne_nil {fn : Filt} {g : Geometry} (hv : g.valid) : sweepOps fn g.width g.height ≠ [] := by
  have hwidth : 1 ≤ g.width := hv.1
  have hlength := length_sweepOps fn g.width g.height
  exact List.ne_nil_of_length_pos (by omega)

/-- The micro-ops that a sweep is made of: PIXEL at an interior coordinate, COPY at a border one (R137, R138). -/
def MicroOp.inSweep (fn : Filt) (g : Geometry) (op : MicroOp) : Prop :=
  (∃ x y, op = .pixel fn x y ∧ g.interior x y) ∨ (∃ x y, op = .copy x y ∧ g.border x y)

theorem mem_interiorOps_iff {fn : Filt} {g : Geometry} {op : MicroOp} :
    op ∈ interiorOps fn g.width g.height ↔ ∃ x y, op = .pixel fn x y ∧ g.interior x y := by
  simp only [interiorOps_eq_range', List.mem_flatMap, List.mem_map, List.mem_range'_1]
  constructor
  · rintro ⟨y, hy, x, hx, rfl⟩
    exact ⟨x, y, rfl, by omega⟩
  · rintro ⟨x, y, rfl, hx1, hx2, hy1, hy2⟩
    exact ⟨y, by omega, x, by omega, rfl⟩

theorem mem_borderOps_iff {g : Geometry} (hv : g.valid) {op : MicroOp} :
    op ∈ borderOps g.width g.height ↔ ∃ x y, op = .copy x y ∧ g.border x y := by
  obtain ⟨hwidth, -, hheight, -⟩ := hv
  simp only [borderOps, List.mem_append, List.mem_flatMap, List.mem_range, List.mem_cons, List.not_mem_nil, or_false]
  constructor
  · rintro (⟨x, hx, rfl | rfl⟩ | ⟨y, hy, rfl | rfl⟩) <;> exact ⟨_, _, rfl, by omega⟩
  · rintro ⟨x, y, rfl, ⟨hx, hy⟩, rfl | hlast | rfl | hlast⟩
    · exact .inl ⟨x, hx, .inl rfl⟩
    · exact .inl ⟨x, hx, .inr (by rw [← hlast, Nat.add_sub_cancel])⟩
    · exact .inr ⟨y, hy, .inl rfl⟩
    · exact .inr ⟨y, hy, .inr (by rw [← hlast, Nat.add_sub_cancel])⟩

/-- The list holds the micro-ops of a sweep and no others (R135). -/
theorem mem_sweepOps_iff {fn : Filt} {g : Geometry} (hv : g.valid) {op : MicroOp} :
    op ∈ sweepOps fn g.width g.height ↔ op.inSweep fn g := by
  rw [sweepOps, List.mem_append, mem_interiorOps_iff, mem_borderOps_iff hv, MicroOp.inSweep]

/-- The offset of the one sample that a micro-op writes (R137, R138); SWAPOP writes none. -/
def MicroOp.target (g : Geometry) : MicroOp → Option Nat
  | .pixel _ x y => some (g.off x y)
  | .copy x y => some (g.off x y)
  | .swapOp => none

/-- Every in-plane sample is written. -/
theorem exists_mem_sweepOps_target {fn : Filt} {g : Geometry} (hv : g.valid) {x y : Nat} (h : g.inPlane x y) :
    ∃ op ∈ sweepOps fn g.width g.height, op.target g = some (g.off x y) := by
  rcases Geometry.interior_or_border h with hi | hb
  · exact ⟨.pixel fn x y, (mem_sweepOps_iff hv).mpr (.inl ⟨x, y, rfl, hi⟩), rfl⟩
  · exact ⟨.copy x y, (mem_sweepOps_iff hv).mpr (.inr ⟨x, y, rfl, hb⟩), rfl⟩

/-! ### The sweep as a function (R130), at the offset of a coordinate -/

section
variable {g : Geometry} {x y : Nat} (fn : Filt) (inp out : Nat → Byte)

theorem sweep_interior (hv : g.valid) (h : g.interior x y) {n : Window} (hn : sample inp g.stride x y = some n) :
    sweep fn g inp out (g.off x y) = filterFn fn n := by
  have hx : x < g.stride := (Geometry.interior_inPlane h).1.trans_le hv.2.2.2
  simp only [sweep, g.off_mod y hx, g.off_div y hx, Geometry.window_eq_some.mpr ⟨h, hn⟩]

theorem sweep_border (hv : g.valid) (h : g.border x y) : sweep fn g inp out (g.off x y) = inp (g.off x y) := by
  have hx : x < g.stride := h.1.1.trans_le hv.2.2.2
  have hi : ¬ g.interior x y := fun hi => Geometry.not_interior_border hi h
  simp only [sweep, g.off_mod y hx, g.off_div y hx, Geometry.window_eq_none hi]
  exact if_pos h

theorem sweep_outside {o : Nat} (h : ∀ x y, g.inPlane x y → g.off x y ≠ o) : sweep fn g inp out o = out o := by
  have hp : ¬ g.inPlane (o % g.stride) (o / g.stride) := fun hp => h _ _ hp (g.off_divMod o)
  have hi : ¬ g.interior (o % g.stride) (o / g.stride) := fun hi => hp (Geometry.interior_inPlane hi)
  rw [sweep, Geometry.window_eq_none hi]
  exact if_neg fun hb => hp hb.1

end

/-! ### One write of one slot -/

theorem setBuf_setBuf (s : State) (slot : Slot) (m m' : Memory) :
    (s.setBuf slot m).setBuf slot m' = s.setBuf slot m' := by cases slot <;> rfl

theorem setBuf_buf (s : State) (slot : Slot) : s.setBuf slot (s.buf slot) = s := by cases slot <;> rfl

/-- A write changes the one sample that it writes. -/
theorem write_frame {s t : State} {slot : Slot} {o : Nat} {v : Byte}
    (h : t = s.setBuf slot ((s.buf slot).write o v)) :
    t.byte slot o = v ∧ (∀ o', o' ≠ o → t.byte slot o' = s.byte slot o') ∧ t = s.setBuf slot (t.buf slot) := by
  subst h
  refine ⟨?_, fun o' ho' => ?_, ?_⟩
  · rw [State.byte_setBuf_self, Memory.read_write_self]
  · rw [State.byte_setBuf_self, Memory.read_write_ne _ _ _ ho', State.byte]
  · rw [setBuf_buf_self]

/-! ### What one micro-op writes (R137, R138) -/

section
variable {s : State}

theorem perform_pixel (fn : Filt) {x y : Nat} {n : Window} (hv : s.geo.valid) (hf : s.geo.fits s.bufCap.toNat)
    (hn : s.readWindow s.sel x y = some n) :
    perform s (.pixel fn x y) =
      some (s.setBuf (otherSlot s.sel) ((s.buf (otherSlot s.sel)).write (s.geo.off x y) (filterFn fn n))) := by
  obtain ⟨-, hi, -⟩ := State.readWindow_eq_some.mp hn
  have hcap : s.geo.off x y < s.bufCap.toNat := s.geo.off_lt_cap hv hf (Geometry.interior_inPlane hi)
  simp only [perform, hn]
  exact State.memWrite_eq_some.mpr ⟨hcap, rfl⟩

theorem perform_pixel_eq_none (fn : Filt) {x y : Nat} (h : ¬ s.geo.interior x y) :
    perform s (.pixel fn x y) = none := by
  simp only [perform, State.readWindow_eq_none h]

theorem perform_copy {x y : Nat} (hv : s.geo.valid) (hf : s.geo.fits s.bufCap.toNat) (h : s.geo.inPlane x y) :
    perform s (.copy x y) =
      some (s.setBuf (otherSlot s.sel)
        ((s.buf (otherSlot s.sel)).write (s.geo.off x y) (s.byte s.sel (s.geo.off x y)))) := by
  have hcap : s.geo.off x y < s.bufCap.toNat := s.geo.off_lt_cap hv hf h
  simp only [perform, State.memRead_eq_some.mpr ⟨hcap, rfl⟩]
  exact State.memWrite_eq_some.mpr ⟨hcap, rfl⟩

/-- A micro-op of a sweep writes the sweep's own value at its target, whatever the output slot holds by then. -/
theorem perform_inSweep {fn : Filt} {op : MicroOp} (hv : s.geo.valid) (hf : s.geo.fits s.bufCap.toNat)
    (h : op.inSweep fn s.geo) (out : Nat → Byte) :
    ∃ o, op.target s.geo = some o ∧
      perform s op = some (s.setBuf (otherSlot s.sel)
        ((s.buf (otherSlot s.sel)).write o (sweep fn s.geo (s.byte s.sel) out o))) := by
  rcases h with ⟨x, y, rfl, hi⟩ | ⟨x, y, rfl, hb⟩
  · obtain ⟨n, hsample, hread⟩ := State.readWindow_interior (slot := s.sel) hv hf hi
    refine ⟨s.geo.off x y, rfl, ?_⟩
    rw [sweep_interior fn _ out hv hi hsample, perform_pixel fn hv hf hread]
  · refine ⟨s.geo.off x y, rfl, ?_⟩
    rw [sweep_border fn _ out hv hb, perform_copy hv hf hb.1]

/-! ### What a list of micro-ops writes, in any order -/

/-- Micro-ops of a sweep write the output slot only, and a sample holds the sweep's value afterwards if it held it before
or is the target of one of them. -/
theorem performAll_inSweep {fn : Filt} {l : List MicroOp} (hv : s.geo.valid) (hf : s.geo.fits s.bufCap.toNat)
    (hl : ∀ op ∈ l, op.inSweep fn s.geo) (out : Nat → Byte) (m : Memory) :
    ∃ m', performAll l (s.setBuf (otherSlot s.sel) m) = some (s.setBuf (otherSlot s.sel) m') ∧
      ∀ o, (m.read o = sweep fn s.geo (s.byte s.sel) out o ∨ ∃ op ∈ l, op.target s.geo = some o) →
        m'.read o = sweep fn s.geo (s.byte s.sel) out o := by
  induction l generalizing m with
  | nil => exact ⟨m, rfl, fun o ho => by simpa using ho⟩
  | cons op l ih =>
    obtain ⟨hop, hrest⟩ := List.forall_mem_cons.mp hl
    obtain ⟨a, ha, hperform⟩ := perform_inSweep (s := s.setBuf (otherSlot s.sel) m) (by simpa using hv)
      (by simpa using hf) (by simpa using hop) out
    simp only [setBuf_geo, setBuf_sel, setBuf_buf_self, State.byte_setBuf_other, setBuf_setBuf] at ha hperform
    obtain ⟨m', hm', hread⟩ := ih hrest (m.write a (sweep fn s.geo (s.byte s.sel) out a))
    refine ⟨m', by simp only [performAll, hperform, hm'], fun o ho => hread o ?_⟩
    by_cases hoa : o = a
    · exact .inl (by rw [hoa, Memory.read_write_self])
    · rw [Memory.read_write_ne _ _ _ hoa]
      simpa [ha, Ne.symm hoa] using ho

/-- Micro-ops of a sweep that include all of `sweep_ops` leave the sweep of the input slot in the output slot. -/
theorem performAll_eq_sweep {fn : Filt} {l : List MicroOp} (hv : s.geo.valid) (hf : s.geo.fits s.bufCap.toNat)
    (hl : ∀ op, op ∈ l ↔ op ∈ sweepOps fn s.geo.width s.geo.height) :
    ∃ m, performAll l s = some (s.setBuf (otherSlot s.sel) m) ∧
      ∀ o, m.read o = sweep fn s.geo (s.byte s.sel) (s.byte (otherSlot s.sel)) o := by
  obtain ⟨m, hm, hread⟩ := performAll_inSweep hv hf (fun op hop => (mem_sweepOps_iff hv).mp ((hl op).mp hop))
    (s.byte (otherSlot s.sel)) (s.buf (otherSlot s.sel))
  rw [setBuf_buf] at hm
  refine ⟨m, hm, fun o => hread o ?_⟩
  by_cases hplane : ∃ x y, s.geo.inPlane x y ∧ s.geo.off x y = o
  · obtain ⟨x, y, hxy, rfl⟩ := hplane
    obtain ⟨op, hop, htarget⟩ := exists_mem_sweepOps_target (fn := fn) hv hxy
    exact .inr ⟨op, (hl op).mpr hop, htarget⟩
  · exact .inl (sweep_outside fn _ _ fun x y hxy ho => hplane ⟨x, y, hxy, ho⟩).symm

/-! ### The SWEEP commands (R139 to R141) -/

/-- A sweep in progress at K = 0 takes as many engine steps as its list has micro-ops. Until the last one only the output
slot and K change; the last one completes the command with the sweep in the output slot (R136). -/
theorem steps_sweep {fn : Filt} (hv : s.geo.valid) (hf : s.geo.fits s.bufCap.toNat) (hmode : s.mode = .sweep fn)
    (hbusy : s.busy = true) (hk : s.k = 0) (hmoves : s.engineMoves) :
    ∃ m, steps (sweepOps fn s.geo.width s.geo.height).length s =
        .next (completeCommand (s.setBuf (otherSlot s.sel) m)) ∧
      (∀ o, m.read o = sweep fn s.geo (s.byte s.sel) (s.byte (otherSlot s.sel)) o) ∧
      ∀ n, n < (sweepOps fn s.geo.width s.geo.height).length →
        ∃ m', steps n s = .next ((s.setBuf (otherSlot s.sel) m').setK n) := by
  obtain ⟨m, hm, hread⟩ := performAll_eq_sweep (l := sweepOps fn s.geo.width s.geo.height) hv hf fun _ => Iff.rfl
  have hops : s.ops = [] ++ sweepOps fn s.geo.width s.geo.height := by simp [State.ops, hmode]
  obtain ⟨hend, hduring⟩ := steps_rest _ hbusy hmoves hops hk.symm (sweepOps_ne_nil hv) hm
  refine ⟨m, hend, hread, fun n hn => ?_⟩
  obtain ⟨v, hv', hsteps⟩ := hduring n hn
  obtain ⟨m', hm', -⟩ := performAll_inSweep hv hf
    (fun op hop => (mem_sweepOps_iff (fn := fn) hv).mp (List.mem_of_mem_take (i := n) hop))
    (s.byte (otherSlot s.sel)) (s.buf (otherSlot s.sel))
  rw [setBuf_buf, hv'] at hm'
  cases hm'
  exact ⟨m', by simpa [hk] using hsteps⟩

theorem sweepCommand_of_trap (fn : Filt) {t : Trap} (h : s.geometryTrap = some t) :
    sweepCommand fn s = raise t s.accept := by
  simp only [sweepCommand, h]

theorem sweepCommand_of_passed (fn : Filt) (hv : s.geo.valid) (hf : s.geo.fits s.bufCap.toNat) :
    sweepCommand fn s = startSequence (.sweep fn) s.accept := by
  simp only [sweepCommand, State.geometryTrap_eq_none.mpr ⟨hv, hf⟩]

end

/-- The three SWEEP commands with their filters and words (R84). -/
def sweepCommands : List (Instr × Filt × Word) :=
  [(.sweepSharpen, .sharpen, 0x00000003#32), (.sweepSobel, .sobel, 0x00000103#32),
   (.sweepMedian, .median, 0x00000203#32)]

theorem exec_of_mem_sweepCommands {i : Instr} {fn : Filt} {c : Word} (h : (i, fn, c) ∈ sweepCommands) :
    encode i = c ∧ ∀ s, exec i s = .next (sweepCommand fn s) := by
  simp only [sweepCommands, List.mem_cons, Prod.mk.injEq, List.not_mem_nil, or_false] at h
  rcases h with ⟨rfl, rfl, rfl⟩ | ⟨rfl, rfl, rfl⟩ | ⟨rfl, rfl, rfl⟩ <;> exact ⟨rfl, fun _ => rfl⟩

/-- What a completed sweep has changed in the state in which it was accepted. -/
theorem completeCommand_sweep_frame {fn : Filt} {s u : State} {slot : Slot} {m : Memory}
    (h : u = completeCommand ((startSequence (.sweep fn) s.accept).setBuf slot m)) :
    u = { s.setBuf slot (u.buf slot) with
          w := u.w, pix := u.pix, draws := u.draws
          mode := .idle, stage := 0, k := 0, busy := false, done := true } := by
  subst h
  cases slot <;> rfl

end Sys2Proof.Machine

namespace Sys2Proof
open Machine

/-! ### The obligations -/

/-- Settles O30: a SWEEP is its checks and the start-up, and the engine steps that follow are the sweep's micro-ops. -/
theorem sweepCommandComputesSweep : Obligations.SweepCommandComputesSweep := by
  intro s i fn c hmem
  obtain ⟨hword, hexec⟩ := exec_of_mem_sweepCommands hmem
  refine ⟨hword, fun hv => ?invalid, fun hv hf => ?tooLarge, fun hv hf hagenda => ?runs⟩
  case invalid => rw [hexec, sweepCommand_of_trap fn (State.geometryTrap_invalid hv)]; rfl
  case tooLarge => rw [hexec, sweepCommand_of_trap fn (State.geometryTrap_tooLarge hv hf)]; rfl
  case runs =>
    obtain ⟨m, hend, hread, hduring⟩ :=
      steps_sweep (s := startSequence (.sweep fn) s.accept) (fn := fn) hv hf rfl rfl rfl (.inl hagenda)
    refine ⟨_, _, by rw [hexec, sweepCommand_of_passed fn hv hf], fun n hn => ?_, hend, fun o => ?_,
      completeCommand_sweep_frame rfl⟩
    · obtain ⟨m', hsteps⟩ := hduring n hn
      exact ⟨_, hsteps, by simp⟩
    · simpa [State.byte] using hread o

/-- Settles O22: the 1-based ranges are the model's ranges shifted by 1, and the lengths of the passes add up. -/
theorem sweepOpsList : Obligations.SweepOpsList := by
  intro fn wd ht
  constructor
  · rw [sweepOps, interiorOps_eq_range', borderOps, List.append_assoc]
  · rw [length_sweepOps, Nat.max_zero, Nat.max_zero, Nat.add_assoc]

/-- Settles O24: a micro-op whose offsets exist is one write of the output slot. -/
theorem microOpEffects : Obligations.MicroOpEffects := by
  refine ⟨fun s fn x y hv hf hi => ?pixel, fun s fn x y hi => perform_pixel_eq_none fn hi,
    fun s x y hv hf hb => ?copy, fun _ => rfl⟩
  case pixel =>
    obtain ⟨n, hsample, hread⟩ := State.readWindow_interior (slot := s.sel) hv hf hi
    exact ⟨n, _, hsample, perform_pixel fn hv hf hread, write_frame rfl⟩
  case copy => exact ⟨_, perform_copy hv hf hb.1, write_frame rfl⟩

end Sys2Proof
end

section
/-!
PROOFS. The pipeline (`43_pipeline.md`): the micro-op list of RUN is three stages, each a sweep followed by SWAPOP, so
that performing it leaves the pipeline in the buffers, and STAGE and SEL count the SWAPOPs performed so far (R150, R152,
R153); the result plane depends on the input plane alone (R157); NOP and SWAP complete within their acceptance (R151,
R154).
-/

namespace Sys2Proof.Machine

/-! ### Issue of a command (R30, R84, R90) -/

theorem issueCommand_locked {s : State} (h : s.busy = true ∨ s.fault = true) (c : Word) :
    issueCommand s c = .next s.setWerr :=
  if_pos ((Bool.or_eq_true _ _).mpr h)

theorem exec_nop (s : State) : exec .nop s = .next { s with done := true } := rfl

theorem exec_swap (s : State) : exec .swap s = .next { s with sel := otherSlot s.sel, done := true } := rfl

theorem exec_run_of_trap {s : State} {t : Trap} (h : s.geometryTrap = some t) :
    exec .run s = .next (raise t s.accept) := by
  simp only [exec, execRun, h]

theorem exec_run_of_passed {s : State} (hv : s.geo.valid) (hf : s.geo.fits s.bufCap.toNat) :
    exec .run s = .next (startSequence .run { s.accept with sel := .a }) := by
  simp only [exec, execRun, State.geometryTrap_eq_none.mpr ⟨hv, hf⟩]

/-- Bit 4 of STATUS is SEL (R28, R33). -/
theorem State.status_getLsbD_four (s : State) : s.status.getLsbD 4 = decide (s.sel = .b) := by
  simp only [State.status, BitVec.getLsbD_setWidth, BitVec.getLsbD_append]
  cases s.sel <;> rfl

/-! ### The micro-op list of RUN (R153) -/

/-- One stage of RUN: a sweep and the SWAPOP that ends it (R153). -/
def stageOps (fn : Filt) (wd ht : Nat) : List MicroOp := sweepOps fn wd ht ++ [.swapOp]

theorem runOps_eq_stages (wd ht : Nat) :
    runOps wd ht = stageOps .sharpen wd ht ++ (stageOps .sobel wd ht ++ stageOps .median wd ht) := by
  simp only [runOps, stageOps, List.append_assoc]

/-- The length of a stage does not depend on its filter. -/
theorem length_stageOps (fn fn' : Filt) (wd ht : Nat) :
    (stageOps fn wd ht).length = (sweepOps fn' wd ht).length + 1 := by
  rw [stageOps, List.length_append, length_sweepOps, length_sweepOps, List.length_singleton]

theorem length_runOps (fn : Filt) (wd ht : Nat) : (runOps wd ht).length = 3 * (sweepOps fn wd ht).length + 3 := by
  simp only [runOps_eq_stages, List.length_append, length_stageOps _ fn]
  omega

theorem runOps_ne_nil (wd ht : Nat) : runOps wd ht ≠ [] := by simp [runOps]

/-- A sweep holds no SWAPOP. -/
theorem swapOp_notMem_sweepOps (fn : Filt) (wd ht : Nat) : MicroOp.swapOp ∉ sweepOps fn wd ht := by
  simp [sweepOps, interiorOps, borderOps]

/-- The one SWAPOP of a stage is its last micro-op. -/
theorem count_swapOp_take_stageOps (fn : Filt) (wd ht n : Nat) :
    ((stageOps fn wd ht).take n).count .swapOp = if n < (stageOps fn wd ht).length then 0 else 1 := by
  have hsweep : ∀ k, ((sweepOps fn wd ht).take k).count .swapOp = 0 := fun k =>
    List.count_eq_zero.mpr fun h => swapOp_notMem_sweepOps fn wd ht (List.mem_of_mem_take h)
  split
  case isTrue h =>
    have hn : n ≤ (sweepOps fn wd ht).length := by
      rw [length_stageOps fn fn] at h
      omega
    rw [stageOps, List.take_append_of_le_length hn, hsweep]
  case isFalse h =>
    rw [List.take_of_length_le (by omega), stageOps, List.count_append,
      List.count_eq_zero.mpr (swapOp_notMem_sweepOps fn wd ht)]
    rfl

/-- The stage that the n-th micro-op of RUN falls in is the number of SWAPOPs before it (R153). -/
theorem count_swapOp_take_runOps {fn : Filt} {wd ht n : Nat} (hn : n < (runOps wd ht).length) :
    ((runOps wd ht).take n).count .swapOp = n / ((sweepOps fn wd ht).length + 1) := by
  rw [length_runOps fn] at hn
  simp only [runOps_eq_stages, List.take_append, List.count_append, count_swapOp_take_stageOps, length_stageOps _ fn]
  symm
  refine Nat.div_eq_of_lt_le ?_ ?_ <;> split_ifs <;> omega

/-! ### STAGE and SEL while micro-ops are performed (R152, R155) -/

/-- The slot that is the input of a stage of RUN (R152). -/
def stageSlot (stage : BitVec 2) : Slot := if stage = 1 then .b else .a

/-- While STAGE is below 2, SWAPOP takes a state with SEL in step with STAGE to the next stage, again in step. -/
theorem swapOpEffect_nextStage {s : State} (hsel : s.sel = stageSlot s.stage) (hstage : s.stage.toNat < 2) :
    (swapOpEffect s).stage.toNat = s.stage.toNat + 1 ∧
      (swapOpEffect s).sel = stageSlot (swapOpEffect s).stage := by
  have hcases : s.stage = 0 ∨ s.stage = 1 := by bv_omega
  rcases hcases with h | h <;> simp [swapOpEffect, hsel, h, stageSlot, otherSlot]

theorem perform_stage_sel {s t : State} {op : MicroOp} (h : perform s op = some t) (hop : op ≠ .swapOp) :
    t.stage = s.stage ∧ t.sel = s.sel := by
  rcases perform_cases h with ⟨hswap, -⟩ | ⟨o, v, -, rfl⟩
  · exact absurd hswap hop
  · exact ⟨setBuf_stage .., setBuf_sel ..⟩

/-- STAGE counts the SWAPOPs that were performed, as long as there are no more than R27 has stages for, and SEL stays in
step with it. -/
theorem performAll_stage_sel {l : List MicroOp} {s t : State} (h : performAll l s = some t)
    (hsel : s.sel = stageSlot s.stage) (hcount : s.stage.toNat + l.count .swapOp ≤ 2) :
    t.stage.toNat = s.stage.toNat + l.count .swapOp ∧ t.sel = stageSlot t.stage := by
  induction l generalizing s with
  | nil =>
    cases h
    exact ⟨rfl, hsel⟩
  | cons op l ih =>
    simp only [performAll] at h
    split at h
    case h_2 => cases h
    case h_1 s' hs' =>
      by_cases hop : op = .swapOp
      · subst hop
        rw [List.count_cons_self] at hcount ⊢
        cases hs'
        obtain ⟨hstage, hsel'⟩ := swapOpEffect_nextStage hsel (by omega)
        obtain ⟨hend, hend'⟩ := ih h hsel' (by omega)
        exact ⟨by omega, hend'⟩
      · rw [List.count_cons_of_ne hop] at hcount ⊢
        obtain ⟨hstage, hsel'⟩ := perform_stage_sel hs' hop
        rw [← hstage] at hcount ⊢
        exact ih h (by rw [hsel', hsel, hstage]) hcount

/-! ### What a stage, and the three stages of RUN, leave in the buffers (R150, R152) -/

section
variable {s : State}

/-- A stage leaves the sweep of its input slot in its output slot, which is the input slot of what follows. -/
theorem performAll_stageOps (fn : Filt) (hv : s.geo.valid) (hf : s.geo.fits s.bufCap.toNat) :
    ∃ t, performAll (stageOps fn s.geo.width s.geo.height) s = some t ∧
      t.geo = s.geo ∧ t.bufCap = s.bufCap ∧ t.sel = otherSlot s.sel ∧ t.byte s.sel = s.byte s.sel ∧
      t.byte (otherSlot s.sel) = sweep fn s.geo (s.byte s.sel) (s.byte (otherSlot s.sel)) := by
  obtain ⟨m, hm, hread⟩ := performAll_eq_sweep (fn := fn) hv hf fun _ => Iff.rfl
  refine ⟨swapOpEffect (s.setBuf (otherSlot s.sel) m), ?_, by simp, by simp, by simp, by simp, funext fun o => ?_⟩
  · rw [stageOps, performAll_append, hm]
    rfl
  · rw [swapOpEffect_byte, State.byte_setBuf_self, hread]

/-- The micro-ops of RUN, performed from SEL = A, leave the pipeline in the buffers and end with SEL = B. -/
theorem performAll_runOps (hv : s.geo.valid) (hf : s.geo.fits s.bufCap.toNat) (hsel : s.sel = .a) :
    ∃ t, performAll (runOps s.geo.width s.geo.height) s = some t ∧ t.sel = .b ∧
      t.byte .a = (pipeline s.geo (s.byte .a) (s.byte .b)).1 ∧
      t.byte .b = (pipeline s.geo (s.byte .a) (s.byte .b)).2 := by
  obtain ⟨t₁, h₁, hgeo₁, hcap₁, hsel₁, hin₁, hout₁⟩ := performAll_stageOps .sharpen hv hf
  obtain ⟨t₂, h₂, hgeo₂, hcap₂, hsel₂, hin₂, hout₂⟩ :=
    performAll_stageOps (s := t₁) .sobel (by rwa [hgeo₁]) (by rwa [hgeo₁, hcap₁])
  obtain ⟨t₃, h₃, -, -, hsel₃, hin₃, hout₃⟩ :=
    performAll_stageOps (s := t₂) .median (by rwa [hgeo₂, hgeo₁]) (by rwa [hgeo₂, hgeo₁, hcap₂, hcap₁])
  simp only [hgeo₁, hgeo₂, hsel, hsel₁, hsel₂, otherSlot] at *
  refine ⟨t₃, ?_, hsel₃, ?_, ?_⟩
  · simp only [runOps_eq_stages, performAll_append, h₁, h₂, h₃, Option.bind_some]
  · rw [hin₃, hout₂, hout₁, hin₁, pipeline]
  · rw [hout₃, hout₂, hin₂, hout₁, hin₁, pipeline]

/-- A RUN in progress at K = 0 takes as many engine steps as its list has micro-ops. Before the n-th the engine is busy in
the stage that n falls in; the last one completes the command with the pipeline in the buffers (R136, R152). -/
theorem steps_run (hv : s.geo.valid) (hf : s.geo.fits s.bufCap.toNat) (hmode : s.mode = .run) (hbusy : s.busy = true)
    (hk : s.k = 0) (hstage : s.stage = 0) (hsel : s.sel = .a) (hmoves : s.engineMoves) :
    ∃ t, steps (runOps s.geo.width s.geo.height).length s = .next (completeCommand t) ∧
      t = { s with bufA := t.bufA, bufB := t.bufB, sel := .b, stage := t.stage } ∧
      t.byte .a = (pipeline s.geo (s.byte .a) (s.byte .b)).1 ∧
      t.byte .b = (pipeline s.geo (s.byte .a) (s.byte .b)).2 ∧
      ∀ n, n < (runOps s.geo.width s.geo.height).length →
        ∃ v, steps n s = .next v ∧ v.busy = s.busy ∧ v.done = s.done ∧
          v.stage.toNat = n / ((sweepOps .sharpen s.geo.width s.geo.height).length + 1) ∧
          v.sel = stageSlot v.stage := by
  obtain ⟨t, ht, htsel, hta, htb⟩ := performAll_runOps hv hf hsel
  have hops : s.ops = [] ++ runOps s.geo.width s.geo.height := by simp [State.ops, hmode]
  obtain ⟨hend, hduring⟩ := steps_rest _ hbusy hmoves hops hk.symm (runOps_ne_nil _ _) ht
  refine ⟨t, hend, htsel ▸ performAll_frame ht, hta, htb, fun n hn => ?_⟩
  obtain ⟨v, hv', hsteps⟩ := hduring n hn
  have hcount := count_swapOp_take_runOps (fn := .sharpen) hn
  have hle : n / ((sweepOps .sharpen s.geo.width s.geo.height).length + 1) ≤ 2 := by
    rw [length_runOps .sharpen] at hn
    exact Nat.le_of_lt_succ (Nat.div_lt_of_lt_mul (by omega))
  obtain ⟨hvstage, hvsel⟩ :=
    performAll_stage_sel hv' (by rw [hsel, hstage]; rfl) (by rw [hstage, hcount]; simpa using hle)
  have hframe := performAll_frame hv'
  refine ⟨_, hsteps, ?_, ?_, ?_, hvsel⟩
  · rw [setK_busy, hframe]
  · rw [setK_done, hframe]
  · rw [setK_stage, hvstage, hcount, hstage]
    exact Nat.zero_add _

end

/-- What a completed RUN has changed in the state in which it was accepted. -/
theorem completeCommand_run_frame {s t u : State}
    (ht : t = { startSequence .run { s.accept with sel := .a } with
                bufA := t.bufA, bufB := t.bufB, sel := .b, stage := t.stage })
    (hu : u = completeCommand t) :
    u = { s with
          bufA := u.bufA, bufB := u.bufB, w := u.w, pix := u.pix, draws := u.draws
          sel := .b, mode := .idle, stage := 0, k := 0, busy := false, done := true } := by
  rw [hu, ht]
  rfl

/-! ### What a sweep depends on (R130, R157) -/

/-- The sampler looks at the nine offsets only. -/
theorem sample_congr {inp inp' : Nat → Byte} {stride x y : Nat}
    (h : ∀ o ∈ windowOffsets stride x y, inp o = inp' o) : sample inp stride x y = sample inp' stride x y := by
  simp only [windowOffsets, List.forall_mem_cons] at h
  obtain ⟨h0, h1, h2, h3, h4, h5, h6, h7, h8, -⟩ := h
  simp only [sample, h0, h1, h2, h3, h4, h5, h6, h7, h8]

/-- The nine offsets around an interior coordinate are those of in-plane coordinates (R101). -/
theorem exists_inPlane_of_mem_windowOffsets {g : Geometry} {x y o : Nat} (h : g.interior x y)
    (ho : o ∈ windowOffsets g.stride x y) : ∃ x' y', g.inPlane x' y' ∧ g.off x' y' = o := by
  obtain ⟨hx1, hx2, hy1, hy2⟩ := h
  simp only [windowOffsets, List.mem_cons, List.not_mem_nil, or_false] at ho
  rcases ho with rfl | rfl | rfl | rfl | rfl | rfl | rfl | rfl | rfl <;>
    exact ⟨_, _, ⟨by omega, by omega⟩, rfl⟩

/-- Two buffers hold the same in-plane samples. -/
def Geometry.sameInPlane (g : Geometry) (a a' : Nat → Byte) : Prop :=
  ∀ x y, g.inPlane x y → a (g.off x y) = a' (g.off x y)

/-- The in-plane samples of a sweep depend on those of its input only, not on the output slot. -/
theorem sweep_sameInPlane {g : Geometry} (fn : Filt) {inp inp' : Nat → Byte} (out out' : Nat → Byte) (hv : g.valid)
    (h : g.sameInPlane inp inp') : g.sameInPlane (sweep fn g inp out) (sweep fn g inp' out') := by
  intro x y hxy
  rcases Geometry.interior_or_border hxy with hi | hb
  · obtain ⟨n, hn, -⟩ := Geometry.window_interior inp hi
    have hsame : sample inp g.stride x y = sample inp' g.stride x y := sample_congr fun o ho => by
      obtain ⟨x', y', hplane, rfl⟩ := exists_inPlane_of_mem_windowOffsets hi ho
      exact h x' y' hplane
    rw [sweep_interior fn _ out hv hi hn, sweep_interior fn _ out' hv hi (hsame ▸ hn)]
  · rw [sweep_border fn _ out hv hb, sweep_border fn _ out' hv hb, h x y hxy]

/-- The result plane of the pipeline depends on the input plane only (R157). -/
theorem pipeline_sameInPlane {g : Geometry} {a a' : Nat → Byte} (b b' : Nat → Byte) (hv : g.valid)
    (h : g.sameInPlane a a') : g.sameInPlane (pipeline g a b).2 (pipeline g a' b').2 :=
  sweep_sameInPlane .median _ _ hv (sweep_sameInPlane .sobel _ _ hv (sweep_sameInPlane .sharpen _ _ hv h))

/-- Outside the plane, buffer B keeps what it held. -/
theorem pipeline_snd_outside {g : Geometry} (a b : Nat → Byte) {o : Nat}
    (h : ∀ x y, g.inPlane x y → g.off x y ≠ o) : (pipeline g a b).2 o = b o :=
  (sweep_outside _ _ _ h).trans (sweep_outside _ _ _ h)

end Sys2Proof.Machine

namespace Sys2Proof
open Machine

/-! ### The obligations -/

/-- Settles O33: a RUN is its checks and the start-up, and the engine steps that follow are the micro-ops of the three
stages. -/
theorem runComputesPipeline : Obligations.RunComputesPipeline := by
  intro s
  refine ⟨rfl, fun hv => ?invalid, fun hv hf => ?tooLarge, fun hv hf hagenda => ?runs⟩
  case invalid => exact exec_run_of_trap (State.geometryTrap_invalid hv)
  case tooLarge => exact exec_run_of_trap (State.geometryTrap_tooLarge hv hf)
  case runs =>
    obtain ⟨t, hend, hframe, hta, htb, hduring⟩ :=
      steps_run (s := startSequence .run { s.accept with sel := .a }) hv hf rfl rfl rfl rfl rfl (.inl hagenda)
    exact ⟨_, _, exec_run_of_passed hv hf, hduring, hend, congrFun hta, congrFun htb,
      completeCommand_run_frame hframe rfl⟩

/-- Settles O36: in-plane, each of the three sweeps passes the agreement on to the next; outside, none writes B. -/
theorem pipelineDeterministic : Obligations.PipelineDeterministic := by
  intro g a a' b b' hv hsame
  have hplane : g.sameInPlane (pipeline g a b).2 (pipeline g a' b').2 := pipeline_sameInPlane b b' hv hsame
  refine ⟨hplane, fun hout o => ?_⟩
  by_cases ho : ∃ x y, g.inPlane x y ∧ g.off x y = o
  · obtain ⟨x, y, hxy, rfl⟩ := ho
    exact hplane x y hxy
  · have hoff : ∀ x y, g.inPlane x y → g.off x y ≠ o := fun x y hxy h => ho ⟨x, y, hxy, h⟩
    rw [pipeline_snd_outside a b hoff, pipeline_snd_outside a' b' hoff, hout o hoff]

/-- Settles O7: NOP is accepted and finished in one step; a locked block drops its word like any other. -/
theorem nopOnlySetsDone : Obligations.NopOnlySetsDone := by
  refine ⟨rfl, exec_nop, fun s rest hagenda hlocked => ?dropped, fun t ht => ?atReset⟩
  case dropped =>
    rw [step_of_agenda_host hagenda, hostAccess_regWrite_cmd,
      issueCommand_locked (s := { s with agenda := rest }) hlocked]
    rfl
  case atReset =>
    cases ht
    rfl

/-- Settles O8: SEL becomes the other slot, and the other slot of the other slot is the slot itself. -/
theorem swapTogglesSel : Obligations.SwapTogglesSel := by
  refine ⟨rfl, exec_swap, fun s t u ht hu => ?twice, fun s t _ => t.status_getLsbD_four, fun t ht => ?atReset⟩
  case twice =>
    cases ht
    cases hu
    exact ⟨otherSlot_ne s.sel, otherSlot_otherSlot s.sel⟩
  case atReset =>
    cases ht
    rfl

/-- Settles O32: the list is the definition's, and the three stages have the same length. -/
theorem runOpsList : Obligations.RunOpsList := fun wd ht => ⟨rfl, fun fn => length_runOps fn wd ht⟩

end Sys2Proof
end

section
/-!
PROOFS. The exceptions (`60_exceptions.md`): which check of which command finds which fault (R170 to R174, R186), that a
fault changes its record and DONE only (R176), that a faulted block ignores everything but a reset (R177), and which
accesses set WERR (R179).
-/

namespace Sys2Proof.Machine

/-! ### The checks of a command (R186) -/

/-- The commands that need the geometry (R172). -/
def geometryCommands : List Instr := [.sample, .sweepSharpen, .sweepSobel, .sweepMedian, .run]

/-- The trap that the checks of a command find at acceptance (R186). -/
def State.commandTrap (s : State) : Instr → Option Trap
  | .nop | .swap | .filtSharpen | .filtSobel | .filtMedian => none
  | .sample => s.sampleTrap
  | .sweepSharpen | .sweepSobel | .sweepMedian | .run => s.geometryTrap

/-- A command that finds a trap raises it and does nothing else. -/
theorem exec_of_commandTrap {s : State} {i : Instr} {tr : Trap} (h : s.commandTrap i = some tr) :
    exec i s = .next (raise tr s.accept) := by
  cases i with
  | nop | swap | filtSharpen | filtSobel | filtMedian => cases h
  | sample => exact exec_sample_of_trap h
  | sweepSharpen | sweepSobel | sweepMedian => exact congrArg Host.Outcome.next (sweepCommand_of_trap _ h)
  | run => exact exec_run_of_trap h

theorem filtCommand_record (fn : Filt) (s : State) :
    (filtCommand fn s).fault = s.fault ∧ (filtCommand fn s).cause = s.cause ∧ (filtCommand fn s).finfo = s.finfo :=
  ⟨rfl, rfl, rfl⟩

/-- A command that finds no trap leaves the fault record alone. -/
theorem exec_of_commandTrap_none {s t : State} {i : Instr} (h : s.commandTrap i = none) (ht : exec i s = .next t) :
    t.fault = s.fault ∧ t.cause = s.cause ∧ t.finfo = s.finfo := by
  cases i with
  | nop | swap => cases ht; exact ⟨rfl, rfl, rfl⟩
  | filtSharpen | filtSobel | filtMedian => cases ht; exact filtCommand_record _ s
  | sample =>
    obtain ⟨hv, hf, hi⟩ := State.sampleTrap_eq_none.mp h
    obtain ⟨n, -, hn⟩ := State.readWindow_interior (slot := s.sel) hv hf hi
    rw [exec_sample_of_window h hn] at ht
    cases ht
    exact ⟨rfl, rfl, rfl⟩
  | sweepSharpen | sweepSobel | sweepMedian =>
    obtain ⟨hv, hf⟩ := State.geometryTrap_eq_none.mp h
    cases ht.symm.trans (congrArg Host.Outcome.next (sweepCommand_of_passed _ hv hf))
    exact ⟨rfl, rfl, rfl⟩
  | run =>
    obtain ⟨hv, hf⟩ := State.geometryTrap_eq_none.mp h
    cases ht.symm.trans (exec_run_of_passed hv hf)
    exact ⟨rfl, rfl, rfl⟩

/-- A trap of the geometry checks is the trap of each command that needs the geometry. -/
theorem State.commandTrap_of_geometryTrap {s : State} {i : Instr} {tr : Trap} (hi : i ∈ geometryCommands)
    (h : s.geometryTrap = some tr) : s.commandTrap i = some tr := by
  simp only [geometryCommands, List.mem_cons, List.not_mem_nil, or_false] at hi
  rcases hi with rfl | rfl | rfl | rfl | rfl
  · exact State.sampleTrap_of_geometryTrap h
  all_goals exact h

theorem State.commandTrap_of_passed {s : State} {i : Instr} (hv : s.geo.valid) (hf : s.geo.fits s.bufCap.toNat)
    (hi : i ≠ .sample ∨ s.geo.interior s.x.toNat s.y.toNat) : s.commandTrap i = none := by
  have hgeo : s.geometryTrap = none := State.geometryTrap_eq_none.mpr ⟨hv, hf⟩
  cases i with
  | nop | swap | filtSharpen | filtSobel | filtMedian => rfl
  | sample => exact State.sampleTrap_eq_none.mpr ⟨hv, hf, hi.resolve_left (not_not_intro rfl)⟩
  | sweepSharpen | sweepSobel | sweepMedian | run => exact hgeo

theorem exec_of_invalid {s : State} {i : Instr} (hi : i ∈ geometryCommands) (hv : ¬ s.geo.valid) :
    exec i s = .next (raise (.invalidGeometry s.geo.faultMask) s.accept) :=
  exec_of_commandTrap (State.commandTrap_of_geometryTrap hi (State.geometryTrap_invalid hv))

theorem exec_of_tooLarge {s : State} {i : Instr} (hi : i ∈ geometryCommands) (hv : s.geo.valid)
    (hf : ¬ s.geo.fits s.bufCap.toNat) : exec i s = .next (raise .capacityExceeded s.accept) :=
  exec_of_commandTrap (State.commandTrap_of_geometryTrap hi (State.geometryTrap_tooLarge hv hf))

theorem exec_sample_of_nonInterior {s : State} (hv : s.geo.valid) (hf : s.geo.fits s.bufCap.toNat)
    (hi : ¬ s.geo.interior s.x.toNat s.y.toNat) : exec .sample s = .next (raise .nonInterior s.accept) :=
  exec_sample_of_trap (State.sampleTrap_nonInterior hv hf hi)

/-- The bits of the mask of R172. -/
theorem Geometry.faultMask_getLsbD (g : Geometry) (j : Nat) :
    g.faultMask.getLsbD j =
      match j with
      | 0 => decide (g.width = 0)
      | 1 => decide (g.stride = 0)
      | 2 => decide (g.height = 0)
      | 3 => decide (g.stride < g.width)
      | _ => false := by
  simp only [Geometry.faultMask, BitVec.getLsbD_setWidth, BitVec.getLsbD_append]
  match j with
  | 0 | 1 | 2 | 3 => simp
  | j + 4 => simp

/-- A register read as a number is 0 exactly if its word is. -/
theorem decide_toNat_eq_zero (v : Word) : decide (v.toNat = 0) = decide (v = 0) :=
  decide_eq_decide.mpr (BitVec.toNat_inj (y := 0))

/-! ### The issue of a command (R30, R90) -/

theorem issueCommand_instr {s : State} {c : Word} {i : Instr} (hb : s.busy = false) (hf : s.fault = false)
    (hi : decode c = .instr i) : issueCommand s c = exec i s := by
  simp [issueCommand, State.locked, hb, hf, hi]

theorem State.locked_eq_true_iff (s : State) : s.locked = true ↔ s.busy = true ∨ s.fault = true :=
  Bool.or_eq_true_iff ..

theorem State.locked_eq_false_iff (s : State) : s.locked = false ↔ s.busy = false ∧ s.fault = false :=
  Bool.or_eq_false_iff ..

/-- What a command at acceptance does to the flags: it raises a fault, or it leaves FAULT alone; WERR is kept. -/
theorem exec_flags {i : Instr} {s t : State} (h : exec i s = .next t) :
    t.werr = s.werr ∧ ((∃ tr, t = raise tr s.accept) ∨ t.fault = s.fault) := by
  rcases exec_cases h with ⟨tr, rfl⟩ | ⟨w, pix, sel, rfl⟩ | ⟨-, ⟨fn, rfl⟩ | rfl⟩
  · exact ⟨rfl, .inl ⟨tr, rfl⟩⟩
  · exact ⟨rfl, .inr rfl⟩
  · exact ⟨rfl, .inr rfl⟩
  · exact ⟨rfl, .inr rfl⟩

/-- The same for the issue of any word to an unlocked block. -/
theorem issueCommand_flags {s t : State} {c : Word} (hl : s.locked = false) (h : issueCommand s c = .next t) :
    t.werr = s.werr ∧ ((∃ tr, t = raise tr s.accept) ∨ t.fault = s.fault) := by
  rcases issueCommand_cases h with ⟨hl', -⟩ | ⟨-, i, -, hexec⟩ | ⟨-, why, -, rfl⟩
  · exact absurd (hl.symm.trans hl') Bool.false_ne_true
  · exact exec_flags hexec
  · exact ⟨rfl, .inl ⟨_, rfl⟩⟩

/-! ### The engine's turn (R136) -/

/-- An engine step touches neither FAULT nor WERR. -/
theorem engineStep_flags {s t : State} (h : engineStep s = .next t) : t.fault = s.fault ∧ t.werr = s.werr := by
  obtain ⟨op, s', -, hp, ⟨-, rfl⟩ | ⟨-, rfl⟩⟩ := engineStep_cases h
  all_goals rw [perform_frame hp]; exact ⟨rfl, rfl⟩

theorem engineTurn_idle {s : State} (hb : s.busy = false) : engineTurn s = .next s := by simp [engineTurn, hb]

theorem engineTurn_flags {s t : State} (h : engineTurn s = .next t) : t.fault = s.fault ∧ t.werr = s.werr := by
  cases hb : s.busy with
  | false => rw [engineTurn_idle hb] at h; cases h; exact ⟨rfl, rfl⟩
  | true => rw [engineTurn, if_pos hb] at h; exact engineStep_flags h

/-! ### Host reads (R34, R57) -/

theorem hostRegRead_idle {s : State} (hb : s.busy = false) (r : Nat) :
    hostRegRead s r = s.answer (.reg ((regOfIndex r).elim 0 s.regValue)) := by
  unfold hostRegRead
  cases regOfIndex r <;> simp [hb]

theorem hostPlaneRead_beyond {s : State} {slot : Slot} {off : Nat} (h : s.bufCap.toNat ≤ off) :
    hostPlaneRead s slot off = s.setWerr.answer (.sample 0) := if_pos h

theorem hostPlaneRead_idle {s : State} {slot : Slot} {off : Nat} (hb : s.busy = false) (h : off < s.bufCap.toNat) :
    hostPlaneRead s slot off = s.answer (.sample (s.byte slot off)) := by
  simp [hostPlaneRead, h, hb]

/-! ### Host writes (R29, R34, R57) -/

/-- The registers that a host write stores in: WIDTH, STRIDE, HEIGHT, X, Y, WIN0, WIN1, WIN2 (R34). -/
def storedRegs : List Nat := [4, 5, 6, 7, 8, 9, 10, 11]

/-- What a host register write is, by the register's index (R29, R30, R34). -/
theorem hostRegWrite_by_index {s t : State} {r : Nat} {v : Word} (h : hostRegWrite s r v = .next t) :
    (r = 1 ∧ issueCommand s v = .next t) ∨
    (r = 3 ∧ t = if v.getLsbD 0 then softReset s else s) ∨
    (r ∈ storedRegs ∧ ∃ width stride height x y w, t = s.gated
      { s with width := width, stride := stride, height := height, x := x, y := y, w := w }) ∨
    (r ∉ 1 :: 3 :: storedRegs ∧ t = s) := by
  have hindex : ∀ n, regOfIndex r = some n → r = regIndex n := by
    intro n hn
    unfold regOfIndex at hn
    split at hn <;> cases hn <;> rfl
  cases hr : regOfIndex r with
  | none =>
    simp only [hostRegWrite, hr] at h
    cases h
    refine .inr (.inr (.inr ⟨fun hmem => ?_, rfl⟩))
    fin_cases hmem <;> cases hr
  | some n =>
    obtain rfl := hindex n hr
    cases n with
    | cmd => exact .inl ⟨rfl, h⟩
    | ctrl => cases h; exact .inr (.inl ⟨rfl, rfl⟩)
    | width | stride | height | x | y | win0 | win1 | win2 =>
      cases h
      exact .inr (.inr (.inl ⟨by decide, _, _, _, _, _, _, rfl⟩))
    | id | status | pix | cause | finfo | cap => cases h; exact .inr (.inr (.inr ⟨by decide, rfl⟩))

theorem State.gated_locked {s : State} (h : s.locked = true) (e : State) : s.gated e = s.setWerr := if_pos h

theorem State.gated_unlocked {s : State} (h : s.locked = false) (e : State) : s.gated e = e := by
  simp [State.gated, h]

/-! ### Accesses that reset, and accesses that are dropped (R29, R179) -/

/-- The access is a write to CTRL with bit 0 set (R29). -/
def accessResets : HostAct → Prop
  | .regWrite r v => r = 3 ∧ v.getLsbD 0 = true
  | _ => False

/-- The block ignores the access with WERR (R179). -/
def State.drops (s : State) : HostAct → Prop
  | .regRead _ => False
  | .regWrite r _ => r ∈ 1 :: storedRegs ∧ s.locked = true
  | .planeRead _ off => s.bufCap.toNat ≤ off
  | .planeWrite _ off _ => s.locked = true ∨ s.bufCap.toNat ≤ off

theorem State.nextIsReset_iff (s : State) :
    s.nextIsReset ↔
      s.agenda.head? = some .hardReset ∨ ∃ act, s.agenda.head? = some (.host act) ∧ accessResets act := by
  refine or_congr_right ⟨?_, ?_⟩
  · rintro ⟨v, hhead, hv⟩
    exact ⟨_, hhead, rfl, hv⟩
  · rintro ⟨act, hhead, hact⟩
    cases act with
    | regWrite r v => obtain ⟨rfl, hv⟩ := hact; exact ⟨v, hhead, hv⟩
    | regRead | planeRead | planeWrite => cases hact

theorem State.nextIsDropped_iff (s : State) :
    s.nextIsDropped ↔ ∃ act, s.agenda.head? = some (.host act) ∧ s.drops act := by
  constructor
  · rintro (⟨r, v, hhead, hr, hl⟩ | ⟨slot, off, v, hhead, hl⟩ | ⟨slot, off, hhead, hoff⟩)
    · exact ⟨_, hhead, hr, s.locked_eq_true_iff.mpr hl⟩
    · exact ⟨_, hhead, (or_assoc.mpr hl).imp_left s.locked_eq_true_iff.mpr⟩
    · exact ⟨_, hhead, hoff⟩
  · rintro ⟨act, hhead, hact⟩
    cases act with
    | regRead r => cases hact
    | regWrite r v => exact .inl ⟨r, v, hhead, hact.1, s.locked_eq_true_iff.mp hact.2⟩
    | planeRead slot off => exact .inr (.inr ⟨slot, off, hhead, hact⟩)
    | planeWrite slot off v =>
      exact .inr (.inl ⟨slot, off, v, hhead, or_assoc.mp (hact.imp_left s.locked_eq_true_iff.mp)⟩)

theorem hostAccess_of_resets {s : State} {act : HostAct} (h : accessResets act) :
    hostAccess s act = .next (softReset s) := by
  cases act with
  | regWrite r v =>
    obtain ⟨rfl, hv⟩ := h
    exact congrArg Host.Outcome.next (if_pos hv)
  | regRead | planeRead | planeWrite => cases h

/-- A dropped access sets WERR; a plane read beyond the buffer is answered all the same. -/
theorem hostAccess_of_drops {s t : State} {act : HostAct} (hdrop : s.drops act) (h : hostAccess s act = .next t) :
    t = { s with werr := true, replies := t.replies } := by
  cases act with
  | regRead r => cases hdrop
  | planeRead slot off =>
    rw [hostAccess, hostPlaneRead_beyond hdrop] at h
    cases h
    rfl
  | planeWrite slot off v =>
    cases h
    rcases hostPlaneWrite_cases s slot off v with hw | ⟨hoff, hl, -⟩
    · rw [hw]; rfl
    · exact absurd hdrop (by simp [State.drops, hl, hoff])
  | regWrite r v =>
    obtain ⟨hr, hl⟩ := hdrop
    rcases hostRegWrite_by_index h with ⟨-, hissue⟩ | ⟨rfl, -⟩ | ⟨-, _, _, _, _, _, _, rfl⟩ | ⟨hnot, -⟩
    · rw [issueCommand_locked (s.locked_eq_true_iff.mp hl)] at hissue
      cases hissue
      rfl
    · exact absurd hr (by decide)
    · rw [State.gated_locked hl]; rfl
    · exact absurd hr fun hmem => hnot (by simp at hmem ⊢; tauto)

/-- Every other access leaves WERR alone. -/
theorem hostAccess_werr_of_taken {s t : State} {act : HostAct} (hreset : ¬ accessResets act) (hdrop : ¬ s.drops act)
    (h : hostAccess s act = .next t) : t.werr = s.werr := by
  cases act with
  | regRead r =>
    cases h
    obtain ⟨d, v, he⟩ := hostRegRead_cases s r
    rw [he]
  | planeRead slot off =>
    cases h
    obtain ⟨d, we, v, rfl | ⟨-, hoff⟩, he⟩ := hostPlaneRead_cases s slot off
    · rw [he]
    · exact absurd hoff hdrop
  | planeWrite slot off v =>
    obtain ⟨hl, hoff⟩ := not_or.mp hdrop
    cases h
    simp [hostPlaneWrite, hl, hoff]
  | regWrite r v =>
    have hunlocked : r ∈ 1 :: storedRegs → s.locked = false := fun hr =>
      Bool.eq_false_iff.mpr fun hl => hdrop ⟨hr, hl⟩
    rcases hostRegWrite_by_index h with ⟨rfl, hissue⟩ | ⟨rfl, rfl⟩ | ⟨hr, _, _, _, _, _, _, rfl⟩ | ⟨-, rfl⟩
    · exact (issueCommand_flags (hunlocked (by decide)) hissue).1
    · rw [if_neg fun hv => hreset ⟨rfl, hv⟩]
    · rw [State.gated_unlocked (hunlocked (List.mem_cons_of_mem _ hr))]
    · rfl

/-- What a reset clears, whether the engine was idle or busy (R200, R201). -/
theorem softReset_flags (s : State) :
    (softReset s).fault = false ∧ (softReset s).werr = false ∧ (softReset s).cause = 0 ∧ (softReset s).finfo = 0 := by
  unfold softReset
  split <;> exact ⟨rfl, rfl, rfl, rfl⟩

theorem hardReset_flags (s : State) :
    (hardReset s).fault = false ∧ (hardReset s).werr = false ∧ (hardReset s).cause = 0 ∧ (hardReset s).finfo = 0 :=
  ⟨rfl, rfl, rfl, rfl⟩

/-! ### A host access to an unfaulted block (R176) -/

/-- Only the issue of a command takes a fault, and it has done nothing else. -/
theorem hostAccess_takes_fault {s t : State} {act : HostAct} (hf : s.fault = false) (h : hostAccess s act = .next t)
    (ht : t.fault = true) : ∃ c tr, act = .regWrite 1 c ∧ s.busy = false ∧ t = raise tr s.accept := by
  have hkept : t.fault ≠ s.fault := by simp [hf, ht]
  cases act with
  | regRead r =>
    cases h
    obtain ⟨d, v, he⟩ := hostRegRead_cases s r
    exact absurd (by rw [he]) hkept
  | planeRead slot off =>
    cases h
    obtain ⟨d, we, v, -, he⟩ := hostPlaneRead_cases s slot off
    exact absurd (by rw [he]) hkept
  | planeWrite slot off v =>
    cases h
    rcases hostPlaneWrite_cases s slot off v with he | ⟨-, -, he⟩
    · exact absurd (by rw [he]; rfl) hkept
    · exact absurd (by rw [he, setBuf_fault]) hkept
  | regWrite r v =>
    rcases hostRegWrite_by_index h with ⟨rfl, hissue⟩ | ⟨-, rfl⟩ | ⟨-, _, _, _, _, _, _, rfl⟩ | ⟨-, rfl⟩
    · cases hl : s.locked with
      | true =>
        rw [issueCommand_locked (s.locked_eq_true_iff.mp hl)] at hissue
        cases hissue
        exact absurd rfl hkept
      | false =>
        obtain ⟨-, ⟨tr, he⟩ | hsame⟩ := issueCommand_flags hl hissue
        · exact ⟨v, tr, rfl, (s.locked_eq_false_iff.mp hl).1, he⟩
        · exact absurd hsame hkept
    · split at ht
      · exact absurd ((softReset_flags s).1.symm.trans ht) Bool.false_ne_true
      · exact absurd (hf.symm.trans ht) Bool.false_ne_true
    · cases hl : s.locked with
      | true => rw [State.gated_locked hl] at hkept; exact absurd rfl hkept
      | false => rw [State.gated_unlocked hl] at hkept; exact absurd rfl hkept
    · exact absurd rfl hkept

/-! ### A faulted block (R177) -/

/-- The invariant's half of R177: a faulted block is idle. -/
theorem State.Inv.idle_of_fault {s : State} (hinv : s.Inv) (hf : s.fault = true) : s.busy = false :=
  Bool.eq_false_iff.mpr fun hb => absurd (hf.symm.trans (hinv.busyClean hb).1) Bool.noConfusion

/-- An access to a faulted idle block that does not reset it sets WERR and answers at most. -/
theorem hostAccess_faulted {s t : State} {act : HostAct} (hb : s.busy = false) (hf : s.fault = true)
    (hreset : ¬ accessResets act) (h : hostAccess s act = .next t) :
    t = { s with werr := t.werr, replies := t.replies } := by
  by_cases hdrop : s.drops act
  · rw [hostAccess_of_drops hdrop h]
  have hl : s.locked = true := s.locked_eq_true_iff.mpr (.inr hf)
  cases act with
  | regRead r => cases h; rw [hostRegRead_idle hb]; rfl
  | planeRead slot off => cases h; rw [hostPlaneRead_idle hb (Nat.lt_of_not_le hdrop)]; rfl
  | planeWrite slot off v => exact absurd (.inl hl) hdrop
  | regWrite r v =>
    rcases hostRegWrite_by_index h with ⟨rfl, -⟩ | ⟨rfl, rfl⟩ | ⟨hr, -⟩ | ⟨-, rfl⟩
    · exact absurd ⟨by decide, hl⟩ hdrop
    · rw [if_neg fun hv => hreset ⟨rfl, hv⟩]
    · exact absurd ⟨List.mem_cons_of_mem _ hr, hl⟩ hdrop
    · rfl

/-! ### A step, by what the turn is -/

/-- A reset turn is one of the two resets. -/
theorem step_of_nextIsReset {s t : State} (hreset : s.nextIsReset) (h : step s = .next t) :
    t = hardReset { s with agenda := s.agenda.tail } ∨ t = softReset { s with agenda := s.agenda.tail } := by
  obtain hhead | ⟨act, hhead, hact⟩ := s.nextIsReset_iff.mp hreset
  · obtain ⟨rest, ha⟩ := List.head?_eq_some_iff.mp hhead
    simp only [step, takeTurn, ha] at h
    cases h
    exact .inl (by rw [ha]; rfl)
  · obtain ⟨rest, ha⟩ := List.head?_eq_some_iff.mp hhead
    rw [step_of_agenda_host ha, hostAccess_of_resets hact] at h
    cases h
    exact .inr (by rw [ha]; rfl)

theorem step_of_nextIsReset_flags {s t : State} (hreset : s.nextIsReset) (h : step s = .next t) :
    t.fault = false ∧ t.werr = false ∧ t.cause = 0 ∧ t.finfo = 0 := by
  rcases step_of_nextIsReset hreset h with rfl | rfl
  · exact hardReset_flags _
  · exact softReset_flags _

theorem step_of_nextIsDropped {s t : State} (hdrop : s.nextIsDropped) (h : step s = .next t) :
    t = { s with werr := true, agenda := s.agenda.tail, replies := t.replies } := by
  obtain ⟨act, hhead, hact⟩ := s.nextIsDropped_iff.mp hdrop
  obtain ⟨rest, ha⟩ := List.head?_eq_some_iff.mp hhead
  rw [step_of_agenda_host ha] at h
  have hdrop' : State.drops { s with agenda := rest } act := by cases act <;> exact hact
  rw [hostAccess_of_drops hdrop' h, ha]
  rfl

/-- A turn that is neither a reset nor a dropped access leaves WERR alone. -/
theorem step_werr_of_taken {s t : State} (hreset : ¬ s.nextIsReset) (hdrop : ¬ s.nextIsDropped)
    (h : step s = .next t) : t.werr = s.werr := by
  rw [State.nextIsReset_iff, not_or] at hreset
  rw [State.nextIsDropped_iff] at hdrop
  rcases step_cases h with ⟨-, he⟩ | ⟨turn, rest, ha, ⟨act, rfl, he⟩ | ⟨-, he⟩ | ⟨-, -, he⟩ | ⟨-, -, rfl⟩ | ⟨rfl, -⟩⟩
  · exact (engineTurn_flags he).2
  · have hhead : s.agenda.head? = some (.host act) := by rw [ha]; rfl
    refine hostAccess_werr_of_taken (s := { s with agenda := rest }) (fun hact => hreset.2 ⟨act, hhead, hact⟩)
      (fun hact => hdrop ⟨act, hhead, ?_⟩) he
    cases act <;> exact hact
  · exact (engineTurn_flags he).2
  · exact (engineStep_flags he).2
  · obtain ⟨d, v, he⟩ := hostRegRead_cases { s with agenda := rest } 2
    rw [he]
  · exact absurd (by rw [ha]; rfl) hreset.1

/-- A turn of a faulted idle block that is no reset changes nothing of the block but WERR (R177). -/
theorem step_faulted {s t : State} (hb : s.busy = false) (hf : s.fault = true) (hreset : ¬ s.nextIsReset)
    (h : step s = .next t) : t = { s with werr := t.werr, agenda := t.agenda, replies := t.replies } := by
  rw [State.nextIsReset_iff, not_or] at hreset
  rcases step_cases h with
    ⟨-, he⟩ | ⟨turn, rest, ha, ⟨act, rfl, he⟩ | ⟨-, he⟩ | ⟨-, hbusy, -⟩ | ⟨-, -, rfl⟩ | ⟨rfl, -⟩⟩
  · rw [engineTurn_idle hb] at he
    cases he
    rfl
  · have hkept := hostAccess_faulted (s := { s with agenda := rest }) hb hf
      (fun hact => hreset.2 ⟨act, by rw [ha]; rfl, hact⟩) he
    rw [hkept]
  · rw [engineTurn_idle (s := { s with agenda := rest }) hb] at he
    cases he
    rfl
  · exact absurd (hb.symm.trans hbusy) Bool.false_ne_true
  · rw [hostRegRead_idle (s := { s with agenda := rest }) hb]
    rfl
  · exact absurd (by rw [ha]; rfl) hreset.1

/-- A turn that takes a fault is the issue of a command (R176). -/
theorem step_takes_fault {s t : State} (hf : s.fault = false) (h : step s = .next t) (ht : t.fault = true) :
    ∃ c rest tr, s.agenda = .host (.regWrite 1 c) :: rest ∧ s.busy = false ∧
      t = raise tr { s with agenda := rest }.accept := by
  have hkept : t.fault ≠ s.fault := by simp [hf, ht]
  rcases step_cases h with ⟨-, he⟩ | ⟨turn, rest, ha, ⟨act, rfl, he⟩ | ⟨-, he⟩ | ⟨-, -, he⟩ | ⟨-, -, rfl⟩ | ⟨-, rfl⟩⟩
  · exact absurd (engineTurn_flags he).1 hkept
  · obtain ⟨c, tr, rfl, hb, hraise⟩ := hostAccess_takes_fault (s := { s with agenda := rest }) hf he ht
    exact ⟨c, rest, tr, ha, hb, hraise⟩
  · exact absurd (engineTurn_flags he).1 hkept
  · exact absurd (engineStep_flags he).1 hkept
  · obtain ⟨d, v, he⟩ := hostRegRead_cases { s with agenda := rest } 2
    exact absurd (by rw [he]) hkept
  · exact absurd ((hardReset_flags _).1.symm.trans ht) Bool.false_ne_true

end Sys2Proof.Machine

namespace Sys2Proof
open Machine

/-! ### The obligations -/

/-- Settles O14: the five commands raise the trap of the first check, whose mask has one bit for each test. -/
theorem invalidGeometryFaultMask : Obligations.InvalidGeometryFaultMask := by
  intro s i hv hi
  refine ⟨s.geo.faultMask, exec_of_invalid hi hv, ?_, ?_, ?_, ?_, fun j hj => ?_⟩
  · exact (s.geo.faultMask_getLsbD 0).trans (decide_toNat_eq_zero s.width)
  · exact (s.geo.faultMask_getLsbD 1).trans (decide_toNat_eq_zero s.stride)
  · exact (s.geo.faultMask_getLsbD 2).trans (decide_toNat_eq_zero s.height)
  · exact s.geo.faultMask_getLsbD 3
  · obtain ⟨j, rfl⟩ := Nat.exists_eq_add_of_le' hj
    exact s.geo.faultMask_getLsbD (j + 4)

/-- Settles O15: a plane that exceeds BUF_CAP is the trap of the second check; the offsets of one that fits are below
its length. -/
theorem capacityExceededFault : Obligations.CapacityExceededFault := fun s hv =>
  ⟨fun hlarge _ hi => exec_of_tooLarge hi hv (Nat.not_le_of_lt hlarge),
    fun hfits _ _ hx hy => s.geo.off_lt_cap hv hfits ⟨hx, hy⟩⟩

/-- Settles O16: the four ways to be off the interior are the four conditions of R36, negated. -/
theorem nonInteriorFault : Obligations.NonInteriorFault := by
  intro s hv hf hoff
  refine exec_sample_of_nonInterior hv hf ?_
  rintro ⟨hx, hx', hy, hy'⟩
  simp only [State.geo] at hx' hy'
  omega

/-- Settles O17: the step is the issue of the word, and what it records is the trap that the word or the command's
checks find. -/
theorem faultTable : Obligations.FaultTable := by
  intro s t c rest hagenda hb hf hcause hfinfo hstep
  rw [step_of_agenda_host hagenda, hostAccess_regWrite_cmd] at hstep
  refine ⟨fun why hwhy => ?illegal, fun i hi => ⟨fun hplain => ?plain, fun hgeo => ⟨fun hv => ?invalid,
    fun hv hfit => ?tooLarge, fun hv hfit => ⟨fun hsample hint => ?nonInterior, fun hint => ?passed⟩⟩⟩⟩
  case illegal =>
    rw [issueCommand_illegal (s := { s with agenda := rest }) hb hf hwhy] at hstep
    cases hstep
    exact ⟨rfl, rfl, rfl⟩
  all_goals rw [issueCommand_instr (s := { s with agenda := rest }) hb hf hi] at hstep
  case plain =>
    have hnone : State.commandTrap { s with agenda := rest } i = none := by fin_cases hplain <;> rfl
    obtain ⟨hfault', hcause', hfinfo'⟩ := exec_of_commandTrap_none hnone hstep
    exact ⟨hfault'.trans hf, hcause'.trans hcause, hfinfo'.trans hfinfo⟩
  case invalid =>
    rw [exec_of_invalid (s := { s with agenda := rest }) hgeo hv] at hstep
    cases hstep
    exact ⟨rfl, rfl, rfl⟩
  case tooLarge =>
    rw [exec_of_tooLarge (s := { s with agenda := rest }) hgeo hv hfit] at hstep
    cases hstep
    exact ⟨rfl, rfl, rfl⟩
  case nonInterior =>
    rw [hsample, exec_sample_of_nonInterior (s := { s with agenda := rest }) hv hfit hint] at hstep
    cases hstep
    exact ⟨rfl, rfl, rfl⟩
  case passed =>
    have hnone := State.commandTrap_of_passed (s := { s with agenda := rest }) hv hfit hint
    obtain ⟨hfault', hcause', hfinfo'⟩ := exec_of_commandTrap_none hnone hstep
    exact ⟨hfault'.trans hf, hcause'.trans hcause, hfinfo'.trans hfinfo⟩

/-- Settles O18: among the turns only the issue of a command takes a fault, and taking it writes the record and DONE. -/
theorem faultsArePrecise : Obligations.FaultsArePrecise := by
  intro s t hf hstep ht
  obtain ⟨c, rest, tr, hagenda, hb, rfl⟩ := step_takes_fault hf hstep ht
  exact ⟨c, rest, tr, hagenda, hb, rfl⟩

/-- Settles O19: the invariant makes a faulted block idle, so that reads answer what it holds and writes are dropped. -/
theorem faultIsSticky : Obligations.FaultIsSticky := by
  intro s t hinv hf hstep
  have hb := hinv.idle_of_fault hf
  have hdropped : s.nextIsDropped → t.werr = true := fun hdrop => by rw [step_of_nextIsDropped hdrop hstep]
  refine ⟨fun hreset => step_faulted hb hf hreset hstep, fun r v rest hagenda hr => ?regWrite,
    fun slot off v rest hagenda => ?planeWrite, fun slot off rest hagenda hoff => ?planeRead,
    fun r rest hagenda => ?regRead, fun hreset => ?reset⟩
  case regWrite => exact hdropped (.inl ⟨r, v, by rw [hagenda]; rfl, hr, .inr hf⟩)
  case planeWrite => exact hdropped (.inr (.inl ⟨slot, off, v, by rw [hagenda]; rfl, .inr (.inl hf)⟩))
  case planeRead =>
    rw [step_of_agenda_host hagenda, hostAccess, hostPlaneRead_idle (s := { s with agenda := rest }) hb hoff] at hstep
    cases hstep
    cases slot <;> rfl
  case regRead =>
    rw [step_of_agenda_host hagenda, hostAccess, hostRegRead_idle (s := { s with agenda := rest }) hb] at hstep
    cases hstep
    refine ⟨_, rfl, ?_, ?_, ?_⟩
    · rintro rfl
      rfl
    · rintro rfl
      exact BitVec.toNat_setWidth_of_le (w := 4) (w' := 32) (by decide)
    · rintro rfl
      rfl
  case reset =>
    obtain ⟨hfault, -, hcause, hfinfo⟩ := step_of_nextIsReset_flags hreset hstep
    exact ⟨hfault, hcause, hfinfo⟩

/-- Settles O20: a reset clears WERR, a dropped access sets it and does nothing else, and every other turn keeps it. -/
theorem werrExactly : Obligations.WerrExactly := by
  intro s t hstep
  refine ⟨?_, fun hdrop => step_of_nextIsDropped hdrop hstep⟩
  by_cases hreset : s.nextIsReset
  · have hclear : t.werr = false := (step_of_nextIsReset_flags hreset hstep).2.1
    simp [hclear, hreset]
  by_cases hdrop : s.nextIsDropped
  · have hset : t.werr = true := by rw [step_of_nextIsDropped hdrop hstep]
    simp [hset, hreset, hdrop]
  · rw [step_werr_of_taken hreset hdrop hstep]
    simp [hreset, hdrop]

end Sys2Proof
end

section
/-!
PROOFS. The invariant: it splits into the buffers, the fault record and the engine's part, which says one thing of an
idle engine and another of a busy one. Every step keeps the parts, and in a state that has them every step has an answer
(R21, R27, R28, R31, R136, R170).
-/

namespace Sys2Proof.Machine

/-! ### The parts of the invariant -/

/-- Both buffers are in canonical form and list only offsets that exist (R4, R21). -/
structure State.BuffersOk (s : State) : Prop where
  memA : s.bufA.wf ∧ s.bufA.within s.bufCap.toNat
  memB : s.bufB.wf ∧ s.bufB.within s.bufCap.toNat
  capPos : 1 ≤ s.bufCap.toNat

/-- CAUSE, FINFO and DONE agree with FAULT (R31, R170, R176). -/
structure State.RecordOk (s : State) : Prop where
  faultDone : s.fault = true → s.done = false
  noFaultRecord : s.fault = false → s.cause = 0 ∧ s.finfo = 0
  faultCause : s.fault = true → 1 ≤ s.cause.toNat ∧ s.cause.toNat ≤ 4

/-- BUSY = 0 and SEQ at rest (R27). -/
structure State.EngineIdle (s : State) : Prop where
  busy : s.busy = false
  mode : s.mode = .idle
  stage : s.stage = 0
  k : s.k = 0

/-- BUSY = 1: a command with a checked geometry stands before a micro-op that exists. STAGE counts the SWAPOPs that it
has performed, and during RUN SEL is in step with STAGE (R27, R28, R152, R155, R186). -/
structure State.EngineBusy (s : State) : Prop where
  busy : s.busy = true
  noFault : s.fault = false
  notDone : s.done = false
  valid : s.geo.valid
  fits : s.geo.fits s.bufCap.toNat
  k_lt : s.k < s.ops.length
  stage : s.stage.toNat = (s.ops.take s.k).count .swapOp
  sel : s.mode = .run → s.sel = stageSlot s.stage

theorem State.ops_of_idle {s : State} (h : s.mode = .idle) : s.ops = [] := by simp only [State.ops, h]

theorem State.ops_of_sweep {s : State} {fn : Filt} (h : s.mode = .sweep fn) :
    s.ops = sweepOps fn s.geo.width s.geo.height := by simp only [State.ops, h]

theorem State.ops_of_run {s : State} (h : s.mode = .run) : s.ops = runOps s.geo.width s.geo.height := by
  simp only [State.ops, h]

theorem State.mode_run_of_swapOp_mem {s : State} (h : MicroOp.swapOp ∈ s.ops) : s.mode = .run := by
  cases hmode : s.mode with
  | idle => rw [State.ops_of_idle hmode] at h; cases h
  | sweep fn => exact absurd (State.ops_of_sweep hmode ▸ h) (swapOp_notMem_sweepOps fn _ _)
  | run => rfl

/-- A sweep performs no SWAPOP. -/
theorem State.count_swapOp_take_ops_of_sweep {s : State} {fn : Filt} (h : s.mode = .sweep fn) (n : Nat) :
    (s.ops.take n).count .swapOp = 0 :=
  List.count_eq_zero.mpr fun hmem => by
    have hrun := State.mode_run_of_swapOp_mem (List.mem_of_mem_take hmem)
    rw [h] at hrun
    cases hrun

/-- During RUN the stage before the n-th micro-op is the number of whole stages in n, and it is at most 2 (R153). -/
theorem State.count_swapOp_take_ops_of_run {s : State} (h : s.mode = .run) {n : Nat} (hn : n < s.ops.length) :
    (s.ops.take n).count .swapOp = n / ((sweepOps .sharpen s.geo.width s.geo.height).length + 1) ∧
      n / ((sweepOps .sharpen s.geo.width s.geo.height).length + 1) ≤ 2 := by
  rw [State.ops_of_run h] at hn ⊢
  refine ⟨count_swapOp_take_runOps hn, ?_⟩
  rw [length_runOps .sharpen] at hn
  exact Nat.le_of_lt_succ (Nat.div_lt_of_lt_mul (by omega))

theorem State.Inv.buffersOk {s : State} (h : s.Inv) : s.BuffersOk := ⟨h.memA, h.memB, h.capPos⟩

theorem State.Inv.recordOk {s : State} (h : s.Inv) : s.RecordOk := ⟨h.faultDone, h.noFaultRecord, h.faultCause⟩

theorem State.Inv.engineIdle {s : State} (h : s.Inv) (hb : s.busy = false) : s.EngineIdle := by
  have hmode := h.modeBusy.mpr hb
  obtain ⟨hstage, hk⟩ := h.idleSeq hmode
  exact ⟨hb, hmode, hstage, hk⟩

theorem State.Inv.engineBusy {s : State} (h : s.Inv) (hb : s.busy = true) : s.EngineBusy := by
  obtain ⟨hfault, hdone⟩ := h.busyClean hb
  obtain ⟨hv, hf⟩ := h.busyGeo hb
  refine ⟨hb, hfault, hdone, hv, hf, h.busyK hb, ?_, fun hrun => (h.runStage hrun).2.2.2⟩
  cases hmode : s.mode with
  | idle => exact absurd ((h.modeBusy.mp hmode).symm.trans hb) Bool.false_ne_true
  | sweep fn => rw [State.count_swapOp_take_ops_of_sweep hmode, h.sweepStage fn hmode]; rfl
  | run =>
    obtain ⟨-, hlo, hhi, -⟩ := h.runStage hmode
    rw [(State.count_swapOp_take_ops_of_run hmode (h.busyK hb)).1]
    exact (Nat.div_eq_of_lt_le hlo hhi).symm

/-- The invariant of an idle block. -/
theorem State.Inv.of_idle {s : State} (hbuf : s.BuffersOk) (hrec : s.RecordOk) (hidle : s.EngineIdle) : s.Inv where
  memA := hbuf.memA
  memB := hbuf.memB
  capPos := hbuf.capPos
  modeBusy := iff_of_true hidle.mode hidle.busy
  idleSeq _ := ⟨hidle.stage, hidle.k⟩
  sweepStage _ _ := hidle.stage
  busyClean hb := absurd (hidle.busy.symm.trans hb) Bool.false_ne_true
  faultDone := hrec.faultDone
  noFaultRecord := hrec.noFaultRecord
  faultCause := hrec.faultCause
  busyGeo hb := absurd (hidle.busy.symm.trans hb) Bool.false_ne_true
  busyK hb := absurd (hidle.busy.symm.trans hb) Bool.false_ne_true
  runStage hrun := absurd (hidle.mode.symm.trans hrun) Mode.noConfusion

/-- The invariant of a busy block. -/
theorem State.Inv.of_busy {s : State} (hbuf : s.BuffersOk) (hrec : s.RecordOk) (hbusy : s.EngineBusy) : s.Inv where
  memA := hbuf.memA
  memB := hbuf.memB
  capPos := hbuf.capPos
  modeBusy := iff_of_false
    (fun hmode => by have hk := hbusy.k_lt; rw [State.ops_of_idle hmode] at hk; exact absurd hk (Nat.not_lt_zero _))
    (fun hb => absurd (hb.symm.trans hbusy.busy) Bool.false_ne_true)
  idleSeq hmode := by
    have hk := hbusy.k_lt
    rw [State.ops_of_idle hmode] at hk
    exact absurd hk (Nat.not_lt_zero _)
  sweepStage fn hmode :=
    BitVec.eq_of_toNat_eq (hbusy.stage.trans (State.count_swapOp_take_ops_of_sweep hmode s.k))
  busyClean _ := ⟨hbusy.noFault, hbusy.notDone⟩
  faultDone := hrec.faultDone
  noFaultRecord := hrec.noFaultRecord
  faultCause := hrec.faultCause
  busyGeo _ := ⟨hbusy.valid, hbusy.fits⟩
  busyK _ := hbusy.k_lt
  runStage hrun := by
    obtain ⟨hcount, hle⟩ := State.count_swapOp_take_ops_of_run hrun hbusy.k_lt
    have hstage := hbusy.stage.trans hcount
    refine ⟨hstage ▸ hle, ?_, ?_, hbusy.sel hrun⟩
    · rw [hstage]; exact Nat.div_mul_le_self _ _
    · rw [hstage, Nat.mul_comm]; exact Nat.lt_mul_div_succ _ (Nat.succ_pos _)

/-! ### What keeps the buffers and the record -/

theorem State.BuffersOk.write {s : State} (h : s.BuffersOk) (slot : Slot) {o : Nat} (v : Byte)
    (ho : o < s.bufCap.toNat) : (s.setBuf slot ((s.buf slot).write o v)).BuffersOk := by
  obtain ⟨⟨hwfA, hinA⟩, ⟨hwfB, hinB⟩, hcap⟩ := h
  cases slot with
  | a => exact ⟨⟨Memory.write_wf _ o v hwfA, Memory.write_within _ o v hinA ho⟩, ⟨hwfB, hinB⟩, hcap⟩
  | b => exact ⟨⟨hwfA, hinA⟩, ⟨Memory.write_wf _ o v hwfB, Memory.write_within _ o v hinB ho⟩, hcap⟩

theorem State.BuffersOk.perform {s t : State} {op : MicroOp} (h : s.BuffersOk) (hp : perform s op = some t) :
    t.BuffersOk := by
  rcases perform_cases hp with ⟨-, rfl⟩ | ⟨o, v, ho, rfl⟩
  · exact { h with }
  · exact h.write _ v ho

theorem State.BuffersOk.drawn {s : State} (h : s.BuffersOk) : s.drawBufs.BuffersOk :=
  ⟨⟨Memory.wf_drawn _, Memory.within_drawn _ _⟩, ⟨Memory.wf_drawn _, Memory.within_drawn _ _⟩, h.capPos⟩

theorem State.RecordOk.of_noFault {s : State} (hf : s.fault = false) (hrec : s.cause = 0 ∧ s.finfo = 0) :
    s.RecordOk :=
  ⟨fun h => absurd (hf.symm.trans h) Bool.false_ne_true, fun _ => hrec,
    fun h => absurd (hf.symm.trans h) Bool.false_ne_true⟩

/-- A fault records one of the four causes (R170). -/
theorem Trap.code_bounds (tr : Trap) : 1 ≤ tr.code.toNat ∧ tr.code.toNat ≤ 4 := by cases tr <;> simp [Trap.code]

theorem recordOk_raise_accept (tr : Trap) (s : State) : (raise tr s.accept).RecordOk :=
  ⟨fun _ => rfl, fun h => absurd h.symm Bool.false_ne_true, fun _ => tr.code_bounds⟩

theorem engineIdle_clearControl (s : State) : s.clearControl.EngineIdle := ⟨rfl, rfl, rfl, rfl⟩

theorem recordOk_clearControl (s : State) : s.clearControl.RecordOk := .of_noFault rfl ⟨rfl, rfl⟩

/-! ### The resets and the commands -/

theorem State.Inv.hardReset {s : State} (h : s.Inv) : (hardReset s).Inv :=
  .of_idle { h.buffersOk.drawn with } { recordOk_clearControl s with } { engineIdle_clearControl s with }

theorem State.Inv.softReset {s : State} (h : s.Inv) : (softReset s).Inv := by
  unfold Machine.softReset
  split
  · exact h.hardReset
  · exact .of_idle { h.buffersOk with } (recordOk_clearControl s) (engineIdle_clearControl s)

theorem State.Inv.raise_accept {s : State} (h : s.Inv) (hb : s.busy = false) (tr : Trap) : (raise tr s.accept).Inv :=
  .of_idle { h.buffersOk with } (recordOk_raise_accept tr s) { h.engineIdle hb with }

/-- A command that passed its checks starts before the first micro-op, in stage 0. -/
theorem engineBusy_startSequence {s : State} {m : Mode} (hf : s.fault = false) (hd : s.done = false)
    (hgeo : s.geo.valid ∧ s.geo.fits s.bufCap.toNat) (hops : (startSequence m s).ops ≠ [])
    (hsel : m = .run → s.sel = .a) : (startSequence m s).EngineBusy where
  busy := rfl
  noFault := hf
  notDone := hd
  valid := hgeo.1
  fits := hgeo.2
  k_lt := List.length_pos_of_ne_nil hops
  stage := rfl
  sel := hsel

theorem State.Inv.exec {s t : State} {i : Instr} (h : s.Inv) (hl : s.locked = false) (hexec : exec i s = .next t) :
    t.Inv := by
  obtain ⟨hb, hf⟩ := s.locked_eq_false_iff.mp hl
  have hrec := h.noFaultRecord hf
  rcases exec_cases hexec with ⟨tr, rfl⟩ | ⟨w, pix, sel, rfl⟩ | ⟨hpassed, ⟨fn, rfl⟩ | rfl⟩
  · exact h.raise_accept hb tr
  · exact .of_idle { h.buffersOk with } (.of_noFault hf hrec) { h.engineIdle hb with }
  · have hgeo := State.geometryTrap_eq_none.mp hpassed
    exact .of_busy { h.buffersOk with } (.of_noFault hf hrec)
      (engineBusy_startSequence hf rfl hgeo (sweepOps_ne_nil hgeo.1) Mode.noConfusion)
  · have hgeo := State.geometryTrap_eq_none.mp hpassed
    exact .of_busy { h.buffersOk with } (.of_noFault hf hrec)
      (engineBusy_startSequence hf rfl hgeo (runOps_ne_nil _ _) fun _ => rfl)

theorem State.Inv.issueCommand {s t : State} {c : Word} (h : s.Inv) (hissue : issueCommand s c = .next t) : t.Inv := by
  rcases issueCommand_cases hissue with ⟨-, rfl⟩ | ⟨hl, i, -, hexec⟩ | ⟨hl, why, -, rfl⟩
  · exact { h with }
  · exact h.exec hl hexec
  · exact h.raise_accept (s.locked_eq_false_iff.mp hl).1 _

theorem State.Inv.hostAccess {s t : State} {act : HostAct} (h : s.Inv) (hact : hostAccess s act = .next t) : t.Inv := by
  cases act with
  | regRead r =>
    cases hact
    obtain ⟨d, v, he⟩ := hostRegRead_cases s r
    rw [he]
    exact { h with }
  | planeRead slot off =>
    cases hact
    obtain ⟨d, we, v, -, he⟩ := hostPlaneRead_cases s slot off
    rw [he]
    exact { h with }
  | planeWrite slot off v =>
    cases hact
    rcases hostPlaneWrite_cases s slot off v with he | ⟨hoff, hl, he⟩
    · rw [he]
      exact { h with }
    · obtain ⟨hb, -⟩ := s.locked_eq_false_iff.mp hl
      rw [he]
      refine .of_idle (h.buffersOk.write slot v hoff) ?_ ?_
      · cases slot <;> exact { h.recordOk with }
      · cases slot <;> exact { h.engineIdle hb with }
  | regWrite r v =>
    rcases hostRegWrite_cases hact with rfl | rfl | rfl | ⟨-, hissue⟩ | ⟨hl, _, _, _, _, _, _, rfl⟩
    · exact h
    · exact h.softReset
    · exact { h with }
    · exact h.issueCommand hissue
    · obtain ⟨hb, -⟩ := s.locked_eq_false_iff.mp hl
      exact .of_idle { h.buffersOk with } { h.recordOk with } { h.engineIdle hb with }

/-! ### The engine's step (R136) -/

/-- A micro-op that is not the last leaves the engine busy before the next one, with STAGE and SEL in step. -/
theorem State.EngineBusy.perform {s t : State} {op : MicroOp} (h : s.EngineBusy) (hop : s.ops[s.k]? = some op)
    (hp : perform s op = some t) (hlast : s.k + 1 ≠ s.ops.length) : (t.setK (s.k + 1)).EngineBusy := by
  have hnext : s.k + 1 < s.ops.length := Nat.lt_of_le_of_ne h.k_lt hlast
  have hframe := perform_frame hp
  have hops : t.ops = s.ops := by rw [hframe]; rfl
  have hmode : t.mode = s.mode := by rw [hframe]
  have htake : s.ops.take (s.k + 1) = s.ops.take s.k ++ [op] := by rw [List.take_add_one, hop]; rfl
  have hseq : t.stage.toNat = (s.ops.take (s.k + 1)).count .swapOp ∧ (s.mode = .run → t.sel = stageSlot t.stage) := by
    rw [htake, List.count_append, ← h.stage]
    by_cases hswap : op = .swapOp
    · subst hswap
      cases hp
      have hrun := State.mode_run_of_swapOp_mem (List.mem_of_getElem? hop)
      have hlow : s.stage.toNat < 2 := by
        obtain ⟨hcount, hle⟩ := State.count_swapOp_take_ops_of_run hrun hnext
        rw [htake, List.count_append, ← h.stage, List.count_singleton_self] at hcount
        omega
      obtain ⟨hstage, hsel⟩ := swapOpEffect_nextStage (h.sel hrun) hlow
      exact ⟨hstage, fun _ => hsel⟩
    · obtain ⟨hstage, hsel⟩ := perform_stage_sel hp hswap
      rw [hstage, hsel, List.count_singleton, if_neg (by simpa using hswap)]
      exact ⟨rfl, h.sel⟩
  exact
    { busy := by rw [setK_busy, hframe]; exact h.busy
      noFault := by rw [setK_fault, hframe]; exact h.noFault
      notDone := by rw [setK_done, hframe]; exact h.notDone
      valid := by rw [setK_geo, hframe]; exact h.valid
      fits := by rw [setK_geo, setK_bufCap, hframe]; exact h.fits
      k_lt := by rw [setK_ops, hops]; exact hnext
      stage := by rw [setK_ops, hops]; exact hseq.1
      sel := fun hrun => hseq.2 (hmode ▸ hrun) }

theorem State.Inv.engineStep {s t : State} (h : s.Inv) (hb : s.busy = true) (hstep : engineStep s = .next t) :
    t.Inv := by
  have hbusy := h.engineBusy hb
  have hrec := h.noFaultRecord hbusy.noFault
  obtain ⟨op, s', hop, hp, ⟨-, rfl⟩ | ⟨hlast, rfl⟩⟩ := engineStep_cases hstep
  all_goals
    have hframe := perform_frame hp
    have hfault : s'.fault = false := by rw [hframe]; exact hbusy.noFault
    have hrec' : s'.cause = 0 ∧ s'.finfo = 0 := by rw [hframe]; exact hrec
  · exact .of_idle { h.buffersOk.perform hp with } (.of_noFault hfault hrec') ⟨rfl, rfl, rfl, rfl⟩
  · exact .of_busy { h.buffersOk.perform hp with } (.of_noFault hfault hrec') (hbusy.perform hop hp hlast)

theorem State.Inv.engineTurn {s t : State} (h : s.Inv) (hturn : engineTurn s = .next t) : t.Inv := by
  cases hb : s.busy with
  | false => rw [engineTurn_idle hb] at hturn; cases hturn; exact h
  | true => rw [Machine.engineTurn, if_pos hb] at hturn; exact h.engineStep hb hturn

theorem State.Inv.step {s t : State} (h : s.Inv) (hstep : step s = .next t) : t.Inv := by
  have hrest : ∀ rest, ({ s with agenda := rest } : State).Inv := fun rest => { h with }
  rcases step_cases hstep with
    ⟨-, he⟩ | ⟨turn, rest, -, ⟨act, -, he⟩ | ⟨-, he⟩ | ⟨-, hb, he⟩ | ⟨-, -, rfl⟩ | ⟨-, rfl⟩⟩
  · exact h.engineTurn he
  · exact (hrest rest).hostAccess he
  · exact (hrest rest).engineTurn he
  · exact h.engineStep hb he
  · exact (hrest rest).hostAccess (act := .regRead 2) rfl
  · exact (hrest rest).hardReset

/-! ### K and OPS fit in the sequencer (R27) -/

theorem interior_add_border_le {wd ht : Nat} (hwidth : 1 ≤ wd) (hheight : 1 ≤ ht) :
    (wd - 2) * (ht - 2) + (2 * wd + 2 * ht) ≤ 2 * (wd * ht) + 2 := by
  obtain ⟨w, rfl⟩ := Nat.exists_eq_add_of_le' hwidth
  obtain ⟨h, rfl⟩ := Nat.exists_eq_add_of_le' hheight
  have hinner : (w + 1 - 2) * (h + 1 - 2) ≤ w * h := Nat.mul_le_mul (by omega) (by omega)
  have hplane : (w + 1) * (h + 1) = w * h + w + h + 1 := by ring
  omega

/-- A sweep performs at most two micro-ops for each in-plane coordinate, and two more. -/
theorem length_sweepOps_le (fn : Filt) {g : Geometry} (hv : g.valid) :
    (sweepOps fn g.width g.height).length ≤ 2 * (g.width * g.height) + 2 :=
  (length_sweepOps fn _ _).trans_le (interior_add_border_le hv.1 hv.2.2.1)

theorem State.EngineBusy.length_ops_lt {s : State} (h : s.EngineBusy) : s.ops.length < 2 ^ 35 := by
  have hplane : s.geo.width * s.geo.height ≤ s.geo.planeLen := Nat.mul_le_mul_right _ h.valid.2.2.2
  have hcap : s.geo.planeLen < 2 ^ 32 := h.fits.trans_lt s.bufCap.isLt
  have hsweep := fun fn => length_sweepOps_le fn h.valid
  have hk := h.k_lt
  cases hmode : s.mode with
  | idle => rw [State.ops_of_idle hmode] at hk; exact absurd hk (Nat.not_lt_zero _)
  | sweep fn =>
    have hlength := hsweep fn
    rw [State.ops_of_sweep hmode]
    omega
  | run =>
    have hlength := hsweep .sharpen
    rw [State.ops_of_run hmode, length_runOps .sharpen]
    omega

/-! ### The state after reset (R39) -/

theorem one_le_config_bufCap : 1 ≤ Config.bufCap.toNat := by
  rw [Config.bufCap, BitVec.toNat_ofNat, Nat.mod_eq_of_lt (by omega)]
  exact Nat.succ_pos _

theorem inv_reset : State.reset.Inv :=
  .of_idle ⟨⟨Memory.wf_drawn _, Memory.within_drawn _ _⟩, ⟨Memory.wf_drawn _, Memory.within_drawn _ _⟩,
    one_le_config_bufCap⟩ (.of_noFault rfl ⟨rfl, rfl⟩) ⟨rfl, rfl, rfl, rfl⟩

/-! ### Every step answers -/

/-- What OPS is made of (R135, R153). -/
theorem State.mem_ops {s : State} {op : MicroOp} (hv : s.geo.valid) (h : op ∈ s.ops) :
    op = .swapOp ∨ ∃ fn, op.inSweep fn s.geo := by
  have hsweep : ∀ fn, op ∈ sweepOps fn s.geo.width s.geo.height → ∃ fn, op.inSweep fn s.geo :=
    fun fn hmem => ⟨fn, (mem_sweepOps_iff hv).mp hmem⟩
  cases hmode : s.mode with
  | idle => rw [State.ops_of_idle hmode] at h; cases h
  | sweep fn => exact .inr (hsweep fn (State.ops_of_sweep hmode ▸ h))
  | run =>
    rw [State.ops_of_run hmode] at h
    simp only [runOps, List.mem_append, List.mem_singleton] at h
    rcases h with ((((h | h) | h) | h) | h) | h
    · exact .inr (hsweep _ h)
    · exact .inl h
    · exact .inr (hsweep _ h)
    · exact .inl h
    · exact .inr (hsweep _ h)
    · exact .inl h

/-- The micro-ops of a command with a checked geometry can be performed. -/
theorem exists_perform {s : State} {op : MicroOp} (hv : s.geo.valid) (hf : s.geo.fits s.bufCap.toNat)
    (h : op = .swapOp ∨ ∃ fn, op.inSweep fn s.geo) : ∃ t, perform s op = some t := by
  rcases h with rfl | ⟨fn, h⟩
  · exact ⟨_, rfl⟩
  · obtain ⟨o, -, hp⟩ := perform_inSweep hv hf h (s.byte (otherSlot s.sel))
    exact ⟨_, hp⟩

/-- The next micro-op of a busy engine exists and can be performed (R136). -/
theorem State.EngineBusy.exists_perform {s : State} (h : s.EngineBusy) :
    ∃ op t, s.ops[s.k]? = some op ∧ Machine.perform s op = some t := by
  obtain ⟨t, ht⟩ := Machine.exists_perform h.valid h.fits (State.mem_ops h.valid (List.getElem_mem h.k_lt))
  exact ⟨_, t, List.getElem?_eq_getElem h.k_lt, ht⟩

theorem State.EngineBusy.exists_engineStep {s : State} (h : s.EngineBusy) : ∃ t, Machine.engineStep s = .next t := by
  obtain ⟨op, s', hop, hp⟩ := h.exists_perform
  by_cases hlast : s.k + 1 = s.ops.length
  · exact ⟨_, engineStep_last hop hp hlast⟩
  · exact ⟨_, engineStep_mid hop hp hlast⟩

theorem State.Inv.exists_engineTurn {s : State} (h : s.Inv) : ∃ t, Machine.engineTurn s = .next t := by
  cases hb : s.busy with
  | false => exact ⟨s, engineTurn_idle hb⟩
  | true => rw [Machine.engineTurn, if_pos hb]; exact (h.engineBusy hb).exists_engineStep

/-- No command is refused, and SAMPLE reads a window only where its checks have passed (R101). -/
theorem exists_exec (i : Instr) (s : State) : ∃ t, exec i s = .next t := by
  cases i with
  | nop | swap | filtSharpen | filtSobel | filtMedian | sweepSharpen | sweepSobel | sweepMedian => exact ⟨_, rfl⟩
  | sample =>
    cases htrap : s.sampleTrap with
    | some tr => exact ⟨_, exec_sample_of_trap htrap⟩
    | none =>
      obtain ⟨hv, hf, hi⟩ := State.sampleTrap_eq_none.mp htrap
      obtain ⟨n, -, hn⟩ := State.readWindow_interior (slot := s.sel) hv hf hi
      exact ⟨_, exec_sample_of_window htrap hn⟩
  | run =>
    cases htrap : s.geometryTrap with
    | some tr => exact ⟨_, exec_run_of_trap htrap⟩
    | none =>
      obtain ⟨hv, hf⟩ := State.geometryTrap_eq_none.mp htrap
      exact ⟨_, exec_run_of_passed hv hf⟩

theorem exists_issueCommand (s : State) (c : Word) : ∃ t, issueCommand s c = .next t := by
  cases hl : s.locked with
  | true => exact ⟨_, issueCommand_locked (s.locked_eq_true_iff.mp hl) c⟩
  | false =>
    obtain ⟨hb, hf⟩ := s.locked_eq_false_iff.mp hl
    cases hc : decode c with
    | illegal why => exact ⟨_, issueCommand_illegal hb hf hc⟩
    | instr i => rw [issueCommand_instr hb hf hc]; exact exists_exec i s

theorem exists_hostAccess (s : State) (act : HostAct) : ∃ t, hostAccess s act = .next t := by
  cases act with
  | regRead | planeRead | planeWrite => exact ⟨_, rfl⟩
  | regWrite r v =>
    simp only [hostAccess, hostRegWrite]
    split
    case h_3 => exact exists_issueCommand s v
    all_goals exact ⟨_, rfl⟩

theorem State.Inv.exists_step {s : State} (h : s.Inv) : ∃ t, Machine.step s = .next t := by
  have hrest : ∀ rest, ({ s with agenda := rest } : State).Inv := fun rest => { h with }
  simp only [Machine.step, takeTurn]
  split
  · exact h.exists_engineTurn
  · exact exists_hostAccess _ _
  · exact (hrest _).exists_engineTurn
  · split
    · rename_i hb
      exact (h.engineBusy hb).exists_engineStep
    · exact ⟨_, rfl⟩
  · exact ⟨_, rfl⟩

end Sys2Proof.Machine

namespace Sys2Proof
open Machine

/-! ### The obligations -/

/-- Settles O56: each kind of turn keeps the buffers and the record and takes the engine from one of its two states to
another. -/
theorem invariantIsKept : Obligations.InvariantIsKept := fun _ _ => State.Inv.step

/-- Settles O57: the micro-op of a busy engine can be performed, and everything else answers in every state. -/
theorem noStepStops : Obligations.NoStepStops := fun _ => State.Inv.exists_step

/-- Settles O58: a running command has a plane that fits in a buffer of fewer than 2^32 samples. -/
theorem sequencerFitsItsWidth : Obligations.SequencerFitsItsWidth := by
  intro s h
  cases hb : s.busy with
  | false =>
    have hidle := h.engineIdle hb
    rw [hidle.k, State.ops_of_idle hidle.mode]
    decide
  | true =>
    have hlength := (h.engineBusy hb).length_ops_lt
    exact ⟨(h.engineBusy hb).k_lt.trans hlength, hlength⟩

/-- Settles O55: after reset the engine is idle, nothing is recorded and the buffers list nothing. -/
theorem invariantHoldsAtReset : Obligations.InvariantHoldsAtReset :=
  ⟨inv_reset, rfl, rfl, rfl, rfl, rfl, rfl, rfl, rfl⟩

end Sys2Proof
end

section
/-!
PROOFS. The sweep and the pipeline as functions (`42_plane_processor.md`, `43_pipeline.md`): what a sweep and the three
stages of the pipeline leave at every coordinate, on the border, outside the plane and on planes without an interior;
and that the micro-ops of a sweep compute it in any order.
-/

namespace Sys2Proof.Machine

/-! ### Coordinates and offsets (R36) -/

/-- An offset belongs to one coordinate whose column is below STRIDE. -/
theorem Geometry.off_inj {g : Geometry} {x y x' y' : Nat} (hx : x < g.stride) (hx' : x' < g.stride)
    (h : g.off x y = g.off x' y') : x = x' ∧ y = y' :=
  ⟨by rw [← g.off_mod y hx, h, g.off_mod y' hx'], by rw [← g.off_div y hx, h, g.off_div y' hx']⟩

theorem Geometry.off_ne_of_padding {g : Geometry} (hv : g.valid) {x y x' y' : Nat} (hpad : g.padding x y)
    (h : g.inPlane x' y') : g.off x' y' ≠ g.off x y := fun he =>
  absurd (Geometry.off_inj (h.1.trans_le hv.2.2.2) hpad.2.1 he).1 (h.1.trans_le hpad.1).ne

/-- A plane with fewer than three columns or rows is all border. -/
theorem Geometry.border_of_degenerate {g : Geometry} (hsmall : g.width < 3 ∨ g.height < 3) {x y : Nat}
    (h : g.inPlane x y) : g.border x y :=
  (Geometry.interior_or_border h).resolve_left fun ⟨_, _, _, _⟩ => by omega

theorem interiorOps_of_degenerate (fn : Filt) {g : Geometry} (hsmall : g.width < 3 ∨ g.height < 3) :
    interiorOps fn g.width g.height = [] := by
  refine List.eq_nil_of_length_eq_zero ?_
  rw [length_interiorOps, Nat.mul_eq_zero]
  omega

/-! ### The result of a sweep (R130) -/

/-- An interior median is one of the nine samples of its window. -/
theorem sweep_median_mem {g : Geometry} {x y : Nat} (inp out : Nat → Byte) (hv : g.valid) (h : g.interior x y) :
    ∃ n, sample inp g.stride x y = some n ∧ sweep .median g inp out (g.off x y) ∈ n.toList := by
  obtain ⟨n, hn, -⟩ := Geometry.window_interior inp h
  exact ⟨n, hn, sweep_interior .median inp out hv h hn ▸ median_mem n⟩

/-- A sweep depends on the in-plane samples of its input and the other samples of its output slot only. -/
theorem sweep_congr {g : Geometry} (fn : Filt) {inp inp' out out' : Nat → Byte} (hv : g.valid)
    (hin : g.sameInPlane inp inp') (hout : ∀ o, (∀ x y, g.inPlane x y → g.off x y ≠ o) → out o = out' o) :
    ∀ o, sweep fn g inp out o = sweep fn g inp' out' o := by
  intro o
  by_cases ho : ∃ x y, g.inPlane x y ∧ g.off x y = o
  · obtain ⟨x, y, hxy, rfl⟩ := ho
    exact sweep_sameInPlane fn out out' hv hin x y hxy
  · have hoff : ∀ x y, g.inPlane x y → g.off x y ≠ o := fun x y hxy h => ho ⟨x, y, hxy, h⟩
    rw [sweep_outside fn inp out hoff, sweep_outside fn inp' out' hoff, hout o hoff]

/-! ### The result of the pipeline (R150) -/

/-- Each stage passes the border on. -/
theorem pipeline_border {g : Geometry} (a b : Nat → Byte) (hv : g.valid) {x y : Nat} (h : g.border x y) :
    (pipeline g a b).1 (g.off x y) = a (g.off x y) ∧ (pipeline g a b).2 (g.off x y) = a (g.off x y) := by
  have hfst : (pipeline g a b).1 (g.off x y) = a (g.off x y) :=
    (sweep_border .sobel _ _ hv h).trans (sweep_border .sharpen _ _ hv h)
  exact ⟨hfst, (sweep_border .median _ _ hv h).trans hfst⟩

theorem pipeline_fst_outside {g : Geometry} (a b : Nat → Byte) {o : Nat}
    (h : ∀ x y, g.inPlane x y → g.off x y ≠ o) : (pipeline g a b).1 o = a o :=
  sweep_outside _ _ _ h

/-! ### The flat field (vector T40) -/

/-- All samples of a window around an interior coordinate of a flat buffer are the same. -/
theorem sample_flat (v : Byte) {stride x y : Nat} (hx : 1 ≤ x) (hy : 1 ≤ y) :
    sample (fun _ => v) stride x y = some ⟨v, v, v, v, v, v, v, v, v⟩ := if_pos ⟨hx, hy⟩

/-- Sharpening keeps a flat plane. -/
theorem sweep_sharpen_flat {g : Geometry} (v : Byte) (out : Nat → Byte) (hv : g.valid) :
    g.sameInPlane (sweep .sharpen g (fun _ => v) out) fun _ => v := by
  intro x y hxy
  rcases Geometry.interior_or_border hxy with hi | hb
  · rw [sweep_interior .sharpen _ out hv hi (sample_flat v hi.1 hi.2.2.1)]
    exact sharpen_flat v
  · rw [sweep_border .sharpen _ out hv hb]

/-- A flat plane has no edges. -/
theorem sweep_sobel_flat {g : Geometry} (v : Byte) (out : Nat → Byte) (hv : g.valid) :
    g.sameInPlane (sweep .sobel g (fun _ => v) out)
      fun o => if g.border (o % g.stride) (o / g.stride) then v else 0 := by
  intro x y hxy
  have hx : x < g.stride := hxy.1.trans_le hv.2.2.2
  simp only [g.off_mod y hx, g.off_div y hx]
  rcases Geometry.interior_or_border hxy with hi | hb
  · rw [sweep_interior .sobel _ out hv hi (sample_flat v hi.1 hi.2.2.1), if_neg (Geometry.not_interior_border hi)]
    exact sobel_flat v
  · rw [sweep_border .sobel _ out hv hb, if_pos hb]

/-- The first two stages of the pipeline leave the frame of a flat plane. -/
theorem pipeline_fst_flat {g : Geometry} (v : Byte) (b : Nat → Byte) (hv : g.valid) :
    g.sameInPlane (pipeline g (fun _ => v) b).1 fun o => if g.border (o % g.stride) (o / g.stride) then v else 0 :=
  fun x y hxy => (sweep_sameInPlane .sobel (fun _ => v) (fun _ => v) hv (sweep_sharpen_flat v b hv) x y hxy).trans
    (sweep_sobel_flat v _ hv x y hxy)

/-- The median of the 10×10 frame of 127 keeps the border and the four interior corners. -/
theorem sweep_median_frame : ∀ x < 10, ∀ y < 10,
    sweep .median ⟨10, 10, 10⟩ (fun o => if (⟨10, 10, 10⟩ : Geometry).border (o % 10) (o / 10) then 127 else 0)
      (fun _ => 0) (y * 10 + x) =
    if x = 0 ∨ x = 9 ∨ y = 0 ∨ y = 9 ∨ ((x = 1 ∨ x = 8) ∧ (y = 1 ∨ y = 8)) then 127 else 0 := by
  decide

/-! ### Acceptance of SWEEP and RUN (R139 to R141, R152) -/

theorem exec_sweep_of_passed {s : State} (fn : Filt) (hv : s.geo.valid) (hf : s.geo.fits s.bufCap.toNat) :
    (Host.Outcome.next (sweepCommand fn s) : Host.Outcome State Fault Refusal) =
      .next { s with done := false, mode := .sweep fn, stage := 0, k := 0, busy := true } :=
  congrArg Host.Outcome.next (sweepCommand_of_passed fn hv hf)

/-- The SWEEP commands are in the table of commands and filters (R84). -/
theorem exists_mem_sweepCommands {i : Instr} (h : i ∈ [Instr.sweepSharpen, .sweepSobel, .sweepMedian]) :
    ∃ fn c, (i, fn, c) ∈ sweepCommands := by
  fin_cases h
  · exact ⟨.sharpen, _, .head _⟩
  · exact ⟨.sobel, _, .tail _ (.head _)⟩
  · exact ⟨.median, _, .tail _ (.tail _ (.head _))⟩

end Sys2Proof.Machine

namespace Sys2Proof
open Machine

/-! ### The obligations -/

/-- Settles O29: what a list of micro-ops leaves depends on which micro-ops it holds, not on their order. -/
theorem sweepOrderIndependent : Obligations.SweepOrderIndependent := by
  intro s fn l hv hf hperm
  obtain ⟨m, hm, hread⟩ := performAll_eq_sweep (fn := fn) hv hf fun _ => hperm.mem_iff
  refine ⟨_, hm, fun o => ?_, ?_⟩
  · rw [State.byte_setBuf_self, hread]
  · rw [setBuf_buf_self]

/-- Settles O23: the two passes of the list, by what each is made of. -/
theorem sweepOpsCoverThePlane : Obligations.SweepOpsCoverThePlane := fun _ _ hv _ => mem_sweepOps_iff hv

/-- Settles O26: the cases of the sweep by coordinate, and the coordinate of an offset. -/
theorem sweepFunctionCases : Obligations.SweepFunctionCases := by
  intro fn g inp out hv
  refine ⟨fun x y hi => ?_, fun x y => sweep_border fn inp out hv, fun o ho => ?_, fun x y x' y' => Geometry.off_inj,
    fun x y => Geometry.not_interior_border⟩
  · obtain ⟨n, hn, -⟩ := Geometry.window_interior inp hi
    exact ⟨n, hn, sweep_interior fn inp out hv hi hn⟩
  · exact sweep_outside fn inp out fun x y hxy h => ho ⟨x, y, hxy, h⟩

/-- Settles O27: a plane without an interior is all border, and the checks of SWEEP do not ask for one. -/
theorem degenerateSweepCopies : Obligations.DegenerateSweepCopies := by
  refine ⟨fun fn g inp out hv hsmall => ⟨fun x y hxy => ?_, interiorOps_of_degenerate fn hsmall⟩,
    fun s hv hf _ i hi => ?_⟩
  · have hb := Geometry.border_of_degenerate hsmall hxy
    exact ⟨hb, sweep_border fn inp out hv hb⟩
  · obtain ⟨fn, c, hmem⟩ := exists_mem_sweepCommands hi
    rw [(exec_of_mem_sweepCommands hmem).2, exec_sweep_of_passed fn hv hf]
    exact ⟨_, rfl, rfl, rfl⟩

/-- Settles O28: the offsets of padding and those beyond the plane are no in-plane offsets, and a sweep keeps them. -/
theorem sweepProperties : Obligations.SweepProperties := by
  intro fn g inp out hv
  refine ⟨fun x y => sweep_border fn inp out hv, fun x y => sweep_median_mem inp out hv,
    fun x y hpad => sweep_outside fn inp out fun x' y' => Geometry.off_ne_of_padding hv hpad,
    fun o ho => sweep_outside fn inp out fun x y hxy => ((g.off_lt_planeLen hv hxy).trans_le ho).ne,
    fun inp' out' => sweep_congr fn hv⟩

/-- Settles O37: the border passes each stage, and no stage writes outside the plane. -/
theorem pipelineBuffers : Obligations.PipelineBuffers := by
  intro g a b hv
  exact ⟨fun o => rfl, fun x y => pipeline_border a b hv,
    fun o ho => ⟨pipeline_fst_outside a b ho, pipeline_snd_outside a b ho⟩,
    fun hsmall x y hxy => pipeline_border a b hv (Geometry.border_of_degenerate hsmall hxy)⟩

/-- Settles O21: the checks have passed, so each of the three is the start-up with its filter. -/
theorem sweepCommandsStart : Obligations.SweepCommandsStart := fun _ hv hf =>
  ⟨exec_sweep_of_passed .sharpen hv hf, exec_sweep_of_passed .sobel hv hf, exec_sweep_of_passed .median hv hf⟩

/-- Settles O31: the checks have passed, so RUN is the start-up with SEL = A. -/
theorem runStarts : Obligations.RunStarts := fun _ hv hf => exec_run_of_passed hv hf

/-- Settles O38: sharpening keeps the flat plane, its gradients vanish, and only the median of the frame is computed
sample by sample. -/
theorem flatFieldScenario : Obligations.FlatFieldScenario := by
  intro b x y hx hy
  have hv : (⟨10, 10, 10⟩ : Geometry).valid := by decide
  have hframe := pipeline_fst_flat 127 b hv
  have hxmod : (⟨10, 10, 10⟩ : Geometry).off x y % 10 = x := Geometry.off_mod _ y hx
  have hydiv : (⟨10, 10, 10⟩ : Geometry).off x y / 10 = y := Geometry.off_div _ y hx
  constructor
  · refine (hframe x y ⟨hx, hy⟩).trans ?_
    simp only [hxmod, hydiv]
    refine if_congr ?_ rfl rfl
    simp only [Geometry.border, Geometry.inPlane]
    omega
  · exact (sweep_sameInPlane .median _ (fun _ => 0) hv hframe x y ⟨hx, hy⟩).trans (sweep_median_frame x hx y hy)

end Sys2Proof
end

section
/-!
PROOFS. The filters, continued (`41_filters.md`): the integer root and its rounding (section 2), and that no filter
tells a window from its mirror images and its transpose (section 4).
-/

namespace Sys2Proof.Machine

/-! ### The integer root and its rounding (R116, R117) -/

/-- `isqrt m` is the greatest number whose square is at most m. -/
theorem mul_self_le_iff_le_isqrt (m k : Nat) : k * k ≤ m ↔ k ≤ isqrt m := by
  obtain ⟨hlo, hhi⟩ := isqrt_spec m
  constructor
  · intro hk
    by_contra hgt
    have hsq : (isqrt m + 1) * (isqrt m + 1) ≤ k * k :=
      Nat.mul_le_mul (Nat.lt_of_not_le hgt) (Nat.lt_of_not_le hgt)
    omega
  · intro hk
    exact (Nat.mul_le_mul hk hk).trans hlo

/-- `q` is the integer nearest to the root of m: q² - q < m ≤ q² + q. -/
def IsNearestRoot (m q : Nat) : Prop := q * (q - 1) < m ∧ m ≤ q * (q + 1)

theorem isNearestRoot_roundedSqrt {m : Nat} (hm : 0 < m) : IsNearestRoot m (roundedSqrt m) := by
  obtain ⟨hlo, hhi⟩ := roundedSqrt_spec m
  refine ⟨?_, by rwa [Nat.mul_add_one]⟩
  rw [Nat.mul_sub_one]
  rcases Nat.eq_zero_or_pos (roundedSqrt m) with hzero | hpos
  · rwa [hzero]
  · have hlt := hlo hpos
    omega

theorem IsNearestRoot.le {m q q' : Nat} (h : IsNearestRoot m q) (h' : IsNearestRoot m q') : q ≤ q' := by
  by_contra hlt
  have hgap : (q' + 1) * q' ≤ q * (q - 1) := Nat.mul_le_mul (by omega) (by omega)
  have hsq : q' * (q' + 1) = (q' + 1) * q' := Nat.mul_comm _ _
  obtain ⟨hlo, -⟩ := h
  obtain ⟨-, hhi⟩ := h'
  omega

theorem roundedSqrt_eq_iff {m : Nat} (hm : 0 < m) (q : Nat) : roundedSqrt m = q ↔ IsNearestRoot m q := by
  have hq := isNearestRoot_roundedSqrt hm
  exact ⟨fun h => h ▸ hq, fun h => Nat.le_antisymm (hq.le h) (h.le hq)⟩

/-- The clamp takes effect from 64771 = 254·255 + 1 on. -/
theorem le_roundedSqrt_of_threshold {m : Nat} (hm : 64771 ≤ m) : 255 ≤ roundedSqrt m := by
  obtain ⟨-, hhi⟩ := roundedSqrt_spec m
  by_contra hlt
  have hsq : roundedSqrt m * roundedSqrt m ≤ 254 * 254 := Nat.mul_le_mul (by omega) (by omega)
  omega

theorem roundedSqrt_le_of_threshold {m : Nat} (hm : m ≤ 64770) : roundedSqrt m ≤ 255 := by
  obtain ⟨hlo, -⟩ := roundedSqrt_spec m
  by_contra hgt
  have hsq : 256 * roundedSqrt m ≤ roundedSqrt m * roundedSqrt m := Nat.mul_le_mul_right _ (by omega)
  have hlt := hlo (by omega)
  omega

/-- The gradients have the same parity, and so the sum of their squares is even. -/
theorem sobelM_even (n : Window) : sobelM n % 2 = 0 := by
  obtain ⟨c, hc⟩ : ∃ c : Int, sobelY n = 2 * c - sobelX n :=
    ⟨(n.mr.toNat + n.br.toNat + n.bc.toNat) - (n.tl.toNat + n.ml.toNat + n.tc.toNat), by
      simp only [sobelX, sobelY]; ring⟩
  have hm : (sobelM n : Int) = 2 * (sobelX n * sobelX n - 2 * (c * sobelX n) + 2 * (c * c)) := by
    rw [sobelM_cast, hc]
    ring
  omega

/-! ### Symmetric windows -/

/-- The window flipped left to right. -/
def Window.flipColumns (n : Window) : Window := ⟨n.tr, n.tc, n.tl, n.mr, n.mc, n.ml, n.br, n.bc, n.bl⟩

/-- The window flipped top to bottom. -/
def Window.flipRows (n : Window) : Window := ⟨n.bl, n.bc, n.br, n.ml, n.mc, n.mr, n.tl, n.tc, n.tr⟩

/-- The window with rows and columns exchanged. -/
def Window.transpose (n : Window) : Window := ⟨n.tl, n.ml, n.bl, n.tc, n.mc, n.bc, n.tr, n.mr, n.br⟩

/-- What the three filters see of a window is the same: the weighted sum, the squared gradient, the samples in some
order. -/
structure Window.Alike (n n' : Window) : Prop where
  sharpenT : sharpenT n = sharpenT n'
  sobelM : sobelM n = sobelM n'
  samples : n.toList.Perm n'.toList

/-- The median does not depend on the order of the samples (R120). -/
theorem median_congr {n n' : Window} (h : n.toList.Perm n'.toList) : median n = median n' :=
  median_eq_of_ascending (h.trans (sortSamples_perm _).symm) (sortSamples_ascending _) (sortSamples_getElem?_four n')

theorem Window.Alike.filterFn {n n' : Window} (h : n.Alike n') (fn : Filt) : filterFn fn n = filterFn fn n' := by
  cases fn with
  | sharpen => simp only [Machine.filterFn, sharpen, h.sharpenT]
  | sobel => simp only [Machine.filterFn, sobel, h.sobelM]
  | median => exact median_congr h.samples

theorem Window.flipColumns_alike (n : Window) : n.flipColumns.Alike n where
  sharpenT := by simp only [Machine.sharpenT, Window.flipColumns]; ring
  sobelM := by simp only [Machine.sobelM, sobelX, sobelY, Window.flipColumns]; congr 1; ring
  samples := List.perm_iff_count.mpr fun a => by
    simp only [Window.toList, Window.flipColumns, List.count_cons]; ring

theorem Window.flipRows_alike (n : Window) : n.flipRows.Alike n where
  sharpenT := by simp only [Machine.sharpenT, Window.flipRows]; ring
  sobelM := by simp only [Machine.sobelM, sobelX, sobelY, Window.flipRows]; congr 1; ring
  samples := List.perm_iff_count.mpr fun a => by
    simp only [Window.toList, Window.flipRows, List.count_cons]; ring

/-- Transposition exchanges the two gradients. -/
theorem Window.transpose_alike (n : Window) : n.transpose.Alike n where
  sharpenT := by simp only [Machine.sharpenT, Window.transpose]; ring
  sobelM := by simp only [Machine.sobelM, sobelX, sobelY, Window.transpose]; congr 1; ring
  samples := List.perm_iff_count.mpr fun a => by
    simp only [Window.toList, Window.transpose, List.count_cons]; ring

end Sys2Proof.Machine

namespace Sys2Proof
open Machine

/-! ### The obligations -/

/-- Settles O42: the two sides of the clamp and the uniqueness of q come from q² - q < m ≤ q² + q. -/
theorem roundedRootIsNearest : Obligations.RoundedRootIsNearest := by
  refine ⟨mul_self_le_iff_le_isqrt, rfl, fun m q hm => roundedSqrt_eq_iff hm q, fun n hm => ?_, fun n hm => ?_,
    sobelM_even⟩
  · apply BitVec.eq_of_toNat_eq
    rw [sobel_toNat, min_eq_right (le_roundedSqrt_of_threshold hm)]
    rfl
  · rw [sobel_toNat, min_eq_left (roundedSqrt_le_of_threshold hm)]

/-- Settles O44: each filter looks at a quantity that the three maps keep. -/
theorem filtersAreSymmetric : Obligations.FiltersAreSymmetric := fun fn n =>
  ⟨n.flipColumns_alike.filterFn fn, n.flipRows_alike.filterFn fn, n.transpose_alike.filterFn fn⟩

end Sys2Proof
end

section
/-!
PROOFS. The host's accesses (`10_state.md`, `20_memory.md`, `70_reset_and_hazards.md`): what each register write stores
and each register read answers (R33, R34), the bits of STATUS (R28), the plane accesses (R57), the resets (R200, R201),
the issue of a command (R30, R90), and the transfer protocol and `setwin`, which are lists of such accesses (R66, R89).
-/

namespace Sys2Proof.Machine

/-! ### STATUS (R28) -/

theorem State.status_bits (s : State) :
    s.status.getLsbD 0 = s.busy ∧ s.status.getLsbD 1 = s.done ∧ s.status.getLsbD 2 = s.fault ∧
      s.status.getLsbD 3 = s.werr ∧ s.status.getLsbD 4 = decide (s.sel = .b) := by
  refine ⟨?_, ?_, ?_, ?_, s.status_getLsbD_four⟩
  all_goals
    simp only [State.status, BitVec.getLsbD_setWidth, BitVec.getLsbD_append]
    simp

theorem State.status_stage (s : State) : s.status.extractLsb' 5 2 = s.stage := by
  apply BitVec.eq_of_getLsbD_eq
  intro i hi
  have hlane : 5 + i - 1 - 1 - 1 - 1 - 1 = i := by omega
  simp only [State.status, BitVec.getLsbD_extractLsb', BitVec.getLsbD_setWidth, BitVec.getLsbD_append]
  rw [if_neg (by omega), if_neg (by omega), if_neg (by omega), if_neg (by omega), if_neg (by omega), hlane]
  simp [hi, show 5 + i < 32 by omega]

theorem State.status_above (s : State) {j : Nat} (hj : 7 ≤ j) : s.status.getLsbD j = false := by
  simp only [State.status, BitVec.getLsbD_setWidth]
  rw [BitVec.getLsbD_of_ge _ _ hj, Bool.and_false]

/-! ### Register indices (R33) -/

theorem regOfIndex_reserved {r : Nat} (h : 16 ≤ r) : regOfIndex r = none := by
  obtain ⟨r, rfl⟩ := Nat.exists_eq_add_of_le' h
  rfl

theorem eq_regIndex_of_regOfIndex {r : Nat} {n : RegName} (h : regOfIndex r = some n) : r = regIndex n := by
  unfold regOfIndex at h
  split at h <;> cases h <;> rfl

/-! ### Register writes (R34) -/

/-- The effect of a write to a register that stores. -/
def State.storeReg (s : State) (v : Word) : RegName → State
  | .width => { s with width := v }
  | .stride => { s with stride := v }
  | .height => { s with height := v }
  | .x => { s with x := v }
  | .y => { s with y := v }
  | .win0 => { s with w := s.w.setWin0 v }
  | .win1 => { s with w := s.w.setWin1 v }
  | .win2 => { s with w := s.w.setWin2 v }
  | _ => s

/-- A write to a storing register of an idle unfaulted block stores. -/
theorem step_of_agenda_store {s : State} {n : RegName} {v : Word} {rest : List Turn}
    (ha : s.agenda = .host (.regWrite (regIndex n) v) :: rest) (hb : s.busy = false) (hf : s.fault = false)
    (hn : regIndex n ∈ storedRegs) : step s = .next (State.storeReg { s with agenda := rest } v n) := by
  have hl : State.locked { s with agenda := rest } = false := (State.locked_eq_false_iff _).mpr ⟨hb, hf⟩
  rw [step_of_agenda_host ha]
  cases n with
  | width | stride | height | x | y | win0 | win1 | win2 =>
    exact congrArg Host.Outcome.next (State.gated_unlocked hl _)
  | id | cmd | status | ctrl | pix | cause | finfo | cap => exact absurd hn (by decide)

/-- A write to CMD or to a storing register of a locked block is dropped. -/
theorem hostRegWrite_locked {s : State} {r : Nat} (v : Word) (hl : s.locked = true) (hr : r ∈ 1 :: storedRegs) :
    hostRegWrite s r v = .next s.setWerr := by
  simp only [storedRegs, List.mem_cons, List.not_mem_nil, or_false] at hr
  rcases hr with rfl | rfl | rfl | rfl | rfl | rfl | rfl | rfl | rfl
  · exact issueCommand_locked (s.locked_eq_true_iff.mp hl) v
  all_goals exact congrArg Host.Outcome.next (State.gated_locked hl _)

/-- A write to a read-only register or a reserved index is ignored. -/
theorem hostRegWrite_ignored (s : State) {r : Nat} (v : Word) (hr : r ∈ [0, 2, 12, 13, 14, 15] ∨ 16 ≤ r) :
    hostRegWrite s r v = .next s := by
  rcases hr with hr | hr
  · fin_cases hr <;> rfl
  · simp only [hostRegWrite, regOfIndex_reserved hr]

/-! ### Register reads (R34) -/

/-- The registers that the engine uses are those with index 9 to 12. -/
theorem usedByEngine_iff (n : RegName) : usedByEngine n = true ↔ regIndex n ∈ [9, 10, 11, 12] := by
  cases n <;> decide

theorem hostRegRead_used {s : State} {r : Nat} (hb : s.busy = true) (hr : r ∈ [9, 10, 11, 12]) :
    hostRegRead s r = { s with draws := s.draws + 1 }.answer (.reg (Config.freeWord s.draws)) := by
  fin_cases hr <;> exact if_pos (by rw [hb]; rfl)

theorem hostRegRead_unused {s : State} {r : Nat} (h : s.busy = false ∨ r ∉ [9, 10, 11, 12]) :
    hostRegRead s r = s.answer (.reg ((regOfIndex r).elim 0 s.regValue)) := by
  cases hn : regOfIndex r with
  | none => simp only [hostRegRead, hn]; rfl
  | some n =>
    obtain rfl := eq_regIndex_of_regOfIndex hn
    have hfree : ¬ (s.busy && usedByEngine n) = true := by
      rw [Bool.and_eq_true, usedByEngine_iff]
      rintro ⟨hb, hr⟩
      exact h.elim (fun hidle => Bool.false_ne_true (hidle.symm.trans hb)) fun hnot => hnot hr
    simp only [hostRegRead, hn]
    exact if_neg hfree

/-! ### Plane accesses (R57) -/

theorem hostPlaneWrite_dropped {s : State} (slot : Slot) {off : Nat} (v : Byte)
    (h : s.bufCap.toNat ≤ off ∨ s.busy = true ∨ s.fault = true) : hostPlaneWrite s slot off v = s.setWerr := by
  rcases h with hoff | hl
  · exact if_pos hoff
  · simp only [hostPlaneWrite, s.locked_eq_true_iff.mpr hl, if_true, ite_self]

theorem hostPlaneWrite_stored {s : State} (slot : Slot) {off : Nat} (v : Byte) (hoff : off < s.bufCap.toNat)
    (hb : s.busy = false) (hf : s.fault = false) :
    hostPlaneWrite s slot off v = s.setBuf slot ((s.buf slot).write off v) := by
  have hl : s.locked = false := s.locked_eq_false_iff.mpr ⟨hb, hf⟩
  simp [hostPlaneWrite, hl, hoff]

theorem hostPlaneRead_busy {s : State} (slot : Slot) {off : Nat} (hoff : off < s.bufCap.toNat) (hb : s.busy = true) :
    hostPlaneRead s slot off = { s with draws := s.draws + 1 }.answer (.sample (Config.freeByte s.draws)) := by
  simp [hostPlaneRead, hoff, hb]

/-! ### The issue of a command (R30, R90) -/

/-- A write to CMD of an idle unfaulted block is the acceptance of the command that the word decodes to. -/
theorem step_of_agenda_issue {s : State} {c : Word} {i : Instr} {rest : List Turn}
    (ha : s.agenda = .host (.regWrite 1 c) :: rest) (hb : s.busy = false) (hf : s.fault = false)
    (hi : decode c = .instr i) : step s = exec i { s with agenda := rest } := by
  rw [step_of_agenda_host ha, hostAccess_regWrite_cmd, issueCommand_instr (s := { s with agenda := rest }) hb hf hi]

theorem decode_of_decodeTableWord {nbits w : Nat} {i : Instr} (h : decodeTableWord nbits w = some i) :
    decode (BitVec.ofNat 32 (w % 2 ^ nbits)) = .instr i := by
  unfold decodeTableWord at h
  split at h
  · cases h
  · split at h
    · rename_i j hj
      cases h
      exact hj
    · cases h

theorem step_withFetchWord {s : State} {nbits w : Nat} {i : Instr} (hb : s.busy = false) (hf : s.fault = false)
    (hi : decodeTableWord nbits w = some i) : step (s.withFetchWord nbits w) = exec i s :=
  step_of_agenda_issue (s := s.withFetchWord nbits w) rfl hb hf (decode_of_decodeTableWord hi)

/-! ### The resets (R29, R200, R201) -/

theorem hostRegWrite_ctrl (s : State) (v : Word) :
    hostRegWrite s 3 v = .next (if v.getLsbD 0 then softReset s else s) := rfl

theorem softReset_idle {s : State} (hb : s.busy = false) : softReset s = s.clearControl := by
  simp [softReset, hb]

theorem softReset_busy {s : State} (hb : s.busy = true) : softReset s = s.clearControl.drawBufs.drawRegs := by
  simp [softReset, hb]

theorem step_of_agenda_hardReset {s : State} {rest : List Turn} (h : s.agenda = .hardReset :: rest) :
    step s = .next (hardReset { s with agenda := rest }) := by
  simp only [step, takeTurn, h]

/-- An idle block with nothing pending stays as it is. -/
theorem step_idle {s : State} (ha : s.agenda = []) (hb : s.busy = false) : step s = .next s := by
  simp only [step, takeTurn, ha, engineTurn_idle hb]

/-! ### Lists of accesses -/

theorem steps_succ {s t : State} (h : step s = .next t) (n : Nat) : steps (n + 1) s = steps n t := by
  simp only [steps, h]

/-- The word of WIN0 and WIN1 that `setwin` makes of four samples (R89). -/
def packLanes (a b c d : Byte) : Word :=
  BitVec.ofNat 32 (a.toNat + 256 * b.toNat + 65536 * c.toNat + 16777216 * d.toNat)

/-- The four samples are read back lane by lane (R52). -/
theorem extractLsb'_packLanes (a b c d : Byte) :
    (packLanes a b c d).extractLsb' 0 8 = a ∧ (packLanes a b c d).extractLsb' 8 8 = b ∧
      (packLanes a b c d).extractLsb' 16 8 = c ∧ (packLanes a b c d).extractLsb' 24 8 = d := by
  refine ⟨?_, ?_, ?_, ?_⟩ <;> apply BitVec.eq_of_toNat_eq <;>
    simp only [packLanes, BitVec.extractLsb'_toNat, BitVec.toNat_ofNat, Nat.shiftRight_eq_div_pow] <;> omega

/-- The lowest lane of a word that packs one sample. -/
theorem extractLsb'_lane (a : Byte) : (BitVec.ofNat 32 a.toNat).extractLsb' 0 8 = a := by
  simpa [packLanes] using (extractLsb'_packLanes a 0 0 0).1

theorem storeReg_frame (s : State) (v : Word) (n : RegName) :
    (s.storeReg v n).busy = s.busy ∧ (s.storeReg v n).fault = s.fault ∧ (s.storeReg v n).agenda = s.agenda ∧
      ∀ turns, { s.storeReg v n with agenda := turns } = State.storeReg { s with agenda := turns } v n := by
  cases n <;> exact ⟨rfl, rfl, rfl, fun _ => rfl⟩

/-- A list of writes to storing registers stores them one after the other. -/
theorem steps_stores {l : List (RegName × Word)} {s : State} {rest : List Turn}
    (ha : s.agenda = (l.map fun p => writeReg p.1 p.2) ++ rest) (hb : s.busy = false) (hf : s.fault = false)
    (hl : ∀ p ∈ l, regIndex p.1 ∈ storedRegs) :
    steps l.length s = .next (l.foldl (fun t p => t.storeReg p.2 p.1) { s with agenda := rest }) := by
  induction l generalizing s with
  | nil => obtain rfl : s.agenda = rest := ha; rfl
  | cons p l ih =>
    obtain ⟨hp, hl'⟩ := List.forall_mem_cons.mp hl
    have hstep := step_of_agenda_store (n := p.1) (v := p.2) ha hb hf hp
    obtain ⟨hbusy, hfault, hagenda, hrest⟩ :=
      storeReg_frame { s with agenda := (l.map fun p => writeReg p.1 p.2) ++ rest } p.2 p.1
    refine (steps_succ hstep _).trans ((ih hagenda (hbusy.trans hb) (hfault.trans hf) hl').trans ?_)
    rw [hrest, List.foldl_cons]

/-- The three writes of `setgeo` store the geometry (R89). -/
theorem steps_setgeo {s : State} (w st h : Word) (ha : s.agenda = expandLine (.setgeo w st h)) (hb : s.busy = false)
    (hf : s.fault = false) : steps 3 s = .next { s with agenda := [], width := w, stride := st, height := h } :=
  steps_stores (l := [(.width, w), (.stride, st), (.height, h)]) ha hb hf (by simp [regIndex, storedRegs])

/-- The three writes of `setwin` load the window (R89). -/
theorem steps_setwin {s : State} (v0 v1 v2 v3 v4 v5 v6 v7 v8 : Byte)
    (ha : s.agenda = expandLine (.setwin v0 v1 v2 v3 v4 v5 v6 v7 v8)) (hb : s.busy = false) (hf : s.fault = false) :
    steps 3 s = .next { s with agenda := [], w := ⟨v0, v1, v2, v3, v4, v5, v6, v7, v8⟩ } := by
  obtain ⟨h0, h1, h2, h3⟩ := extractLsb'_packLanes v0 v1 v2 v3
  obtain ⟨h4, h5, h6, h7⟩ := extractLsb'_packLanes v4 v5 v6 v7
  refine (steps_stores (l := [(.win0, packLanes v0 v1 v2 v3), (.win1, packLanes v4 v5 v6 v7),
    (.win2, BitVec.ofNat 32 v8.toNat)]) ha hb hf (by simp [regIndex, storedRegs])).trans ?_
  simp only [List.foldl_cons, List.foldl_nil, State.storeReg, Window.setWin0, Window.setWin1, Window.setWin2, h0, h1,
    h2, h3, h4, h5, h6, h7, extractLsb'_lane]

/-- `l` written sample by sample from offset `start` on. -/
def Memory.writeFrom (m : Memory) : (start : Nat) → List Byte → Memory
  | _, [] => m
  | start, v :: l => (m.write start v).writeFrom (start + 1) l

theorem Memory.read_writeFrom (m : Memory) (start : Nat) (l : List Byte) (o : Nat) :
    (m.writeFrom start l).read o = if start ≤ o then (l[o - start]?).getD (m.read o) else m.read o := by
  induction l generalizing m start with
  | nil => simp [Memory.writeFrom]
  | cons v l ih =>
    rw [Memory.writeFrom, ih, Memory.read_write]
    rcases Nat.lt_trichotomy o start with hlt | rfl | hgt
    · rw [if_neg (by omega), if_neg (by omega), if_neg (by omega)]
    · rw [if_neg (by omega), if_pos rfl, if_pos le_rfl, Nat.sub_self]
      rfl
    · obtain ⟨d, rfl⟩ := Nat.exists_eq_add_of_lt hgt
      rw [if_pos (by omega), if_neg (by omega), if_pos (by omega), show start + d + 1 - (start + 1) = d by omega,
        show start + d + 1 - start = d + 1 by omega, List.getElem?_cons_succ]

theorem length_loadFrom (slot : Slot) (start : Nat) (l : List Byte) : (loadFrom slot start l).length = l.length := by
  induction l generalizing start with
  | nil => rfl
  | cons v l ih => rw [loadFrom, List.length_cons, ih, List.length_cons]

/-- A load puts its bytes in order from its first offset on (R89). -/
theorem steps_loadFrom {s : State} {slot : Slot} {start : Nat} {l : List Byte} {rest : List Turn}
    (ha : s.agenda = loadFrom slot start l ++ rest) (hb : s.busy = false) (hf : s.fault = false)
    (hcap : start + l.length ≤ s.bufCap.toNat) :
    steps l.length s = .next (State.setBuf { s with agenda := rest } slot ((s.buf slot).writeFrom start l)) := by
  induction l generalizing s start with
  | nil =>
    obtain rfl : s.agenda = rest := ha
    rw [Memory.writeFrom]
    exact congrArg Host.Outcome.next (setBuf_buf s slot).symm
  | cons v l ih =>
    rw [List.length_cons] at hcap
    have hstep : step s = .next (State.setBuf { s with agenda := loadFrom slot (start + 1) l ++ rest } slot
        ((s.buf slot).write start v)) :=
      (step_of_agenda_host ha).trans (congrArg Host.Outcome.next
        (hostPlaneWrite_stored (s := { s with agenda := loadFrom slot (start + 1) l ++ rest }) slot v
          (show start < s.bufCap.toNat by omega) hb hf))
    refine (steps_succ hstep _).trans ((ih (start := start + 1)
      (s := State.setBuf { s with agenda := loadFrom slot (start + 1) l ++ rest } slot ((s.buf slot).write start v))
      (setBuf_agenda ..) ((setBuf_busy ..).trans hb) ((setBuf_fault ..).trans hf) ?_).trans ?_)
    · rw [setBuf_bufCap]
      show start + 1 + l.length ≤ s.bufCap.toNat
      omega
    · rw [setBuf_buf_self, Memory.writeFrom]
      cases slot <;> rfl

theorem loadPlane_eq_some {bytes : List Byte} {w st h : Word} {turns : List Turn}
    (hturns : loadPlane bytes w st h = some turns) :
    st.toNat * h.toNat ≤ bytes.length ∧
      turns = loadFrom .a 0 (bytes.take (st.toNat * h.toNat)) ++ expandLine (.setgeo w st h) := by
  unfold loadPlane at hturns
  split at hturns
  · cases hturns
  · exact ⟨by omega, (Option.some.inj hturns).symm⟩

/-- Plane reads of an idle block answer the samples, the newest first in the list of replies. -/
theorem steps_planeReads {s : State} {slot : Slot} {offs : List Nat} {rest : List Turn}
    (ha : s.agenda = (offs.map fun i => Turn.host (.planeRead slot i)) ++ rest) (hb : s.busy = false)
    (hcap : ∀ i ∈ offs, i < s.bufCap.toNat) :
    steps offs.length s =
      .next { s with agenda := rest
                     replies := (offs.map fun i => Reply.sample (s.byte slot i)).reverse ++ s.replies } := by
  induction offs generalizing s with
  | nil => obtain rfl : s.agenda = rest := ha; rfl
  | cons i offs ih =>
    obtain ⟨hi, hcap'⟩ := List.forall_mem_cons.mp hcap
    have hstep := (step_of_agenda_host ha).trans
      (congrArg Host.Outcome.next (hostPlaneRead_idle (slot := slot) (off := i) hb hi))
    refine (steps_succ hstep _).trans ((ih
      (s := State.answer { s with agenda := (offs.map fun i => Turn.host (.planeRead slot i)) ++ rest }
        (.sample (s.byte slot i))) rfl hb hcap').trans ?_)
    rw [List.map_cons, List.reverse_cons, List.append_assoc]
    rfl

end Sys2Proof.Machine

namespace Sys2Proof
open Machine

/-! ### The obligations -/

/-- Settles O45: a write is dropped, ignored or stored, by the register's kind and the lock. -/
theorem registerWrites : Obligations.RegisterWrites := by
  intro s v rest r ha
  have hstep : step s = hostRegWrite { s with agenda := rest } r v := step_of_agenda_host ha
  refine ⟨fun hr hl => ?dropped, fun hr => ?ignored, fun hb hf => ?stored⟩
  case dropped =>
    exact hstep.trans (hostRegWrite_locked v ((State.locked_eq_true_iff { s with agenda := rest }).mpr hl) hr)
  case ignored => exact hstep.trans (hostRegWrite_ignored _ v hr)
  case stored =>
    refine ⟨?_, ?_, ?_, ?_, ?_, ?_, ?_, ?_⟩ <;> rintro rfl
    · exact step_of_agenda_store (n := .width) ha hb hf (by decide)
    · exact step_of_agenda_store (n := .stride) ha hb hf (by decide)
    · exact step_of_agenda_store (n := .height) ha hb hf (by decide)
    · exact step_of_agenda_store (n := .x) ha hb hf (by decide)
    · exact step_of_agenda_store (n := .y) ha hb hf (by decide)
    · exact step_of_agenda_store (n := .win0) ha hb hf (by decide)
    · exact step_of_agenda_store (n := .win1) ha hb hf (by decide)
    · exact step_of_agenda_store (n := .win2) ha hb hf (by decide)

/-- Settles O46: a read answers a free word or the register's value, and adds that answer to the replies only. -/
theorem registerReads : Obligations.RegisterReads := by
  intro s rest r ha
  have hstep : step s = .next (hostRegRead { s with agenda := rest } r) := step_of_agenda_host ha
  refine ⟨fun hb hr => ?used, fun h => ?unused⟩
  case used => exact hstep.trans (congrArg Host.Outcome.next (hostRegRead_used (s := { s with agenda := rest }) hb hr))
  case unused =>
    refine ⟨_, hstep.trans (congrArg Host.Outcome.next (hostRegRead_unused (s := { s with agenda := rest }) h)), ?_⟩
    refine ⟨?_, ?_, ?_, ?_, ?_, ?_, ?_, ?_, ?_, ?_, ?_, ?win2, ?pix, ?cause, ?_, ?_, fun hr => ?reserved⟩
    case win2 => rintro rfl; exact BitVec.toNat_setWidth_of_le (w := 8) (w' := 32) (by decide)
    case pix => rintro rfl; exact BitVec.toNat_setWidth_of_le (w := 8) (w' := 32) (by decide)
    case cause => rintro rfl; exact BitVec.toNat_setWidth_of_le (w := 4) (w' := 32) (by decide)
    case reserved => rw [regOfIndex_reserved hr]; rfl
    all_goals rintro rfl; rfl

/-- Settles O47: the fields of the concatenation, one by one. -/
theorem statusWordBits : Obligations.StatusWordBits := by
  intro s
  obtain ⟨hbusy, hdone, hfault, hwerr, hsel⟩ := s.status_bits
  exact ⟨hbusy, hdone, hfault, hwerr, hsel, s.status_stage, fun _ => s.status_above⟩

/-- Settles O60: the three bits of STATUS that a run's end is read from, and the invariant's exclusions between them. -/
theorem runEndsWellOrBadly : Obligations.RunEndsWellOrBadly := by
  intro s h
  obtain ⟨hbusy, hdone, hfault, -⟩ := s.status_bits
  have hwell : s.endedWell = true ↔ s.busy = false ∧ s.fault = false ∧ s.done = true := by
    simp only [State.endedWell, hbusy, hdone, hfault, Bool.and_eq_true, Bool.not_eq_true', and_assoc]
  have hbadly : s.endedBadly = true ↔ s.fault = true := by
    simp only [State.endedBadly, hbusy, hfault, Bool.and_eq_true, Bool.not_eq_true']
    exact and_iff_right_of_imp h.idle_of_fault
  refine ⟨hwell, hbadly, fun ⟨hw, hb⟩ => ?_, fun hb => ⟨?_, ?_⟩⟩
  · exact Bool.false_ne_true ((hwell.mp hw).2.1.symm.trans (hbadly.mp hb))
  · exact Bool.eq_false_iff.mpr fun hw => Bool.false_ne_true ((hwell.mp hw).1.symm.trans hb)
  · exact Bool.eq_false_iff.mpr fun hf => Bool.false_ne_true ((h.idle_of_fault (hbadly.mp hf)).symm.trans hb)

/-- Settles O48: a plane access is dropped, stored or answered, by its offset and the lock. -/
theorem planeAccesses : Obligations.PlaneAccesses := by
  intro s rest slot off v
  refine ⟨fun ha => ⟨fun hdrop => ?dropped, fun hoff hb hf => ?stored⟩,
    fun ha => ⟨fun hoff => ?beyond, fun hoff hb => ?busy, fun hoff hb => ?idle⟩⟩
  case stored =>
    have hstep := (step_of_agenda_host ha).trans (congrArg Host.Outcome.next
      (hostPlaneWrite_stored (s := { s with agenda := rest }) slot v hoff hb hf))
    exact ⟨_, hstep, write_frame rfl⟩
  all_goals refine (step_of_agenda_host ha).trans (congrArg Host.Outcome.next ?_)
  case dropped => exact hostPlaneWrite_dropped (s := { s with agenda := rest }) slot v hdrop
  case beyond => exact hostPlaneRead_beyond (s := { s with agenda := rest }) hoff
  case busy => exact hostPlaneRead_busy (s := { s with agenda := rest }) slot hoff hb
  case idle => exact hostPlaneRead_idle (s := { s with agenda := rest }) hb hoff

/-- Settles O49: bit 0 decides whether there is a reset, BUSY which data it leaves. -/
theorem controlRegisterSoftReset : Obligations.ControlRegisterSoftReset := by
  intro s rest v
  refine ⟨fun ha => ?write, fun ha => ?read⟩
  case write =>
    have hstep := (step_of_agenda_host ha).trans (hostRegWrite_ctrl { s with agenda := rest } v)
    refine ⟨fun hv => ?_, fun hv hb => ?_, fun hv hb => ?_⟩
    · rw [hstep, hv]
      rfl
    · rw [hstep, if_pos hv, softReset_idle (s := { s with agenda := rest }) hb]
      rfl
    · rw [hstep, if_pos hv, softReset_busy (s := { s with agenda := rest }) hb]
      rfl
  case read =>
    exact (step_of_agenda_host ha).trans (congrArg Host.Outcome.next
      (hostRegRead_unused (s := { s with agenda := rest }) (.inr (by decide))))

/-- Settles O50: what a hard reset writes, field by field, and that the block is then idle and unfaulted. -/
theorem hardResetClears : Obligations.HardResetClears := by
  intro s rest ha
  refine ⟨_, step_of_agenda_hardReset ha, ?_⟩
  iterate 23 refine ⟨rfl, ?_⟩
  exact ⟨step_idle rfl rfl, step_withFetchWord (nbits := 32) (w := 0) (i := .nop) rfl rfl (by decide)⟩

/-- Settles O51: the three words hold the nine samples in the lanes that the registers read them from. -/
theorem setwinLoadsTheWindow : Obligations.SetwinLoadsTheWindow :=
  fun _ v0 v1 v2 v3 v4 v5 v6 v7 v8 hb hf => steps_setwin v0 v1 v2 v3 v4 v5 v6 v7 v8 rfl hb hf

/-- Settles O52: a load and a dump are one access for each sample, in order; the geometry follows the load. -/
theorem loadAndStorePlane : Obligations.LoadAndStorePlane := by
  refine ⟨fun s bytes w h st turns hb hf hcap hturns => ?load, fun bytes w h st hshort => if_pos hshort,
    fun s st h hb hcap => ?store⟩
  case load =>
    obtain ⟨hlong, rfl⟩ := loadPlane_eq_some hturns
    have hlength : (bytes.take (st.toNat * h.toNat)).length = st.toNat * h.toNat := List.length_take_of_le hlong
    generalize hl : bytes.take (st.toNat * h.toNat) = l at hlength
    have hload := steps_loadFrom (s := { s with agenda := loadFrom .a 0 l ++ expandLine (.setgeo w st h) }) rfl hb hf
      (by rw [hlength, Nat.zero_add]; exact hcap)
    have hgeo := steps_setgeo w st h
      (s := State.setBuf { s with agenda := expandLine (.setgeo w st h) } .a (s.bufA.writeFrom 0 l)) rfl hb hf
    have hsteps := (steps_add _ 3 _ _ hload).trans hgeo
    rw [List.length_append, length_loadFrom]
    refine ⟨_, hsteps, rfl, fun i hi => ?_, fun i hi => ?_, rfl⟩
    all_goals
      simp only [State.byte, State.buf, State.setBuf]
      rw [Memory.read_writeFrom, if_pos (Nat.zero_le i), Nat.sub_zero]
    · have hget : l[i]? = bytes[i]? := by rw [← hl, List.getElem?_take_of_lt hi]
      rw [hget, List.getElem?_eq_getElem (hi.trans_le hlong)]
      rfl
    · rw [List.getElem?_eq_none (hlength.trans_le hi)]
      rfl
  case store =>
    have hreads := steps_planeReads (s := { s with agenda := storePlane st h }) (slot := .b) (rest := [])
      (offs := List.range (st.toNat * h.toNat)) (List.append_nil _).symm hb
      fun i hi => (List.mem_range.mp hi).trans_le hcap
    rwa [List.length_range] at hreads

/-- Settles O5: such a word is a command, and its issue is the acceptance. -/
theorem stepRunsIssuedCommand : Obligations.StepRunsIssuedCommand := fun _ _ i _ ha hb hf hi =>
  ⟨by cases i <;> rfl, step_of_agenda_issue ha hb hf hi⟩

/-- Settles O6: the word that is placed decodes to the command of its row. -/
theorem fetchWordRunsNext : Obligations.FetchWordRunsNext := fun _ _ _ _ => step_withFetchWord

/-- Settles O3: the decoder evaluated on eight words. -/
theorem handWrittenWordsDecode : Obligations.HandWrittenWordsDecode := by
  unfold Obligations.HandWrittenWordsDecode
  decide

end Sys2Proof
end

section
/-!
PROOFS. The engine at work: one step of it (R136), what it and the commands leave alone (R22, R23, R26), that the
accesses of the host do not touch what it uses (R34, R57), and so that a running command ends after the engine steps
that are left, whatever the host does meanwhile (R204).
-/

namespace Sys2Proof.Machine

/-! ### The turns that move the engine (R136) -/

theorem engineTurn_busy {s : State} (hb : s.busy = true) : engineTurn s = engineStep s := if_pos hb

theorem step_of_agenda_nil {s : State} (h : s.agenda = []) : step s = engineTurn s := by
  simp only [step, takeTurn, h]

theorem step_of_agenda_engine {s : State} {rest : List Turn} (h : s.agenda = .engine :: rest) :
    step s = engineTurn { s with agenda := rest } := by
  simp only [step, takeTurn, h]

/-- A wait on an idle block ends with the answer of a STATUS read (R89). -/
theorem step_of_agenda_wait_idle {s : State} {rest : List Turn} (h : s.agenda = .wait :: rest) (hb : s.busy = false) :
    step s = .next { s with agenda := rest, replies := .reg s.status :: s.replies } := by
  simp only [step, takeTurn, h]
  rw [if_neg (by simp [hb])]
  exact congrArg Host.Outcome.next (hostRegRead_idle (s := { s with agenda := rest }) hb 2)

/-- A turn of the engine that finds it busy is an engine step; an offered turn is used up, a wait is not. -/
theorem step_of_engine_turn {s u : State} (hb : s.busy = true)
    (h : (s.agenda = [] ∧ u = s) ∨ (∃ rest, s.agenda = .engine :: rest ∧ u = { s with agenda := rest }) ∨
      (∃ rest, s.agenda = .wait :: rest ∧ u = s)) :
    step s = engineStep u ∧ u = { s with agenda := u.agenda } := by
  rcases h with ⟨ha, rfl⟩ | ⟨rest, ha, rfl⟩ | ⟨rest, ha, rfl⟩
  · exact ⟨step_eq_engineStep (.inl ha) hb, rfl⟩
  · exact ⟨(step_of_agenda_engine ha).trans (engineTurn_busy (s := { s with agenda := rest }) hb), rfl⟩
  · exact ⟨step_eq_engineStep (.inr ⟨rest, ha⟩) hb, rfl⟩

/-! ### One engine step -/

/-- OPS of a busy engine has at least the four border micro-ops of a plane of one sample. -/
theorem State.EngineBusy.four_le_length_ops {s : State} (h : s.EngineBusy) : 4 ≤ s.ops.length := by
  obtain ⟨hwidth, -, hheight, -⟩ := h.valid
  have hsweep : ∀ fn, 4 ≤ (sweepOps fn s.geo.width s.geo.height).length := fun fn => by
    rw [length_sweepOps]
    omega
  have hk := h.k_lt
  cases hmode : s.mode with
  | idle => rw [State.ops_of_idle hmode] at hk; exact absurd hk (Nat.not_lt_zero _)
  | sweep fn => rw [State.ops_of_sweep hmode]; exact hsweep fn
  | run =>
    rw [State.ops_of_run hmode, length_runOps .sharpen]
    have := hsweep .sharpen
    omega

/-- The last step of a command, its draws named by the counter of the state before. -/
theorem completeCommand_of_perform {s t : State} {op : MicroOp} (hp : perform s op = some t) :
    completeCommand t =
      { t with
        w := freeWindow s.draws, pix := Config.freeByte (s.draws + 9), draws := s.draws + 10
        mode := .idle, stage := 0, k := 0, busy := false, done := true } := by
  have hdraws : t.draws = s.draws := by rw [perform_frame hp]
  rw [← hdraws]
  rfl

/-- An engine step leaves the geometry, the coordinates, WERR, the fault record, the agenda and the replies alone. -/
theorem engineStep_frame {s t : State} (h : engineStep s = .next t) :
    t = { s with
          bufA := t.bufA, bufB := t.bufB, w := t.w, pix := t.pix, sel := t.sel, mode := t.mode, stage := t.stage
          k := t.k, busy := t.busy, done := t.done, draws := t.draws } := by
  obtain ⟨op, s', -, hp, ⟨-, rfl⟩ | ⟨-, rfl⟩⟩ := engineStep_cases h
  all_goals rw [perform_frame hp]; rfl

/-- A step before the last one counts K and changes neither OPS nor BUSY. -/
theorem State.Inv.engineStep_counts {s : State} (h : s.Inv) (hb : s.busy = true) (hk : s.k + 1 < s.ops.length) :
    ∃ t, Machine.engineStep s = .next t ∧ t.busy = true ∧ t.k = s.k + 1 ∧ t.ops = s.ops := by
  obtain ⟨op, s', hop, hp⟩ := (h.engineBusy hb).exists_perform
  refine ⟨_, engineStep_mid hop hp hk.ne, ?_, rfl, ?_⟩
  · rw [setK_busy, perform_frame hp]
    exact hb
  · rw [setK_ops, perform_frame hp]
    rfl

/-- The last step completes the command without a fault. -/
theorem State.Inv.engineStep_completes {s : State} (h : s.Inv) (hb : s.busy = true) (hk : s.k + 1 = s.ops.length) :
    ∃ t, Machine.engineStep s = .next t ∧ t.busy = false ∧ t.done = true ∧ t.fault = false := by
  obtain ⟨op, s', hop, hp⟩ := (h.engineBusy hb).exists_perform
  refine ⟨_, engineStep_last hop hp hk, rfl, rfl, ?_⟩
  rw [completeCommand_fault, perform_frame hp]
  exact (h.engineBusy hb).noFault

/-- During a SWEEP an engine step keeps SEL and the input slot. -/
theorem engineStep_keeps_input {s t : State} (h : engineStep s = .next t) (hmode : s.mode ≠ .run) :
    t.sel = s.sel ∧ t.buf s.sel = s.buf s.sel := by
  obtain ⟨op, s', hop, hp, hend⟩ := engineStep_cases h
  have hop' : op ≠ .swapOp := fun hswap => hmode (State.mode_run_of_swapOp_mem (hswap ▸ List.mem_of_getElem? hop))
  have hs' : s'.sel = s.sel ∧ s'.buf s.sel = s.buf s.sel := by
    rcases perform_cases hp with ⟨hswap, -⟩ | ⟨o, v, -, rfl⟩
    · exact absurd hswap hop'
    · exact ⟨setBuf_sel .., setBuf_buf_other ..⟩
  rcases hend with ⟨-, rfl⟩ | ⟨-, rfl⟩
  · rwa [completeCommand_sel, completeCommand_buf]
  · rwa [setK_sel, setK_buf]

/-! ### What a command leaves alone at acceptance (R22, R23, R26) -/

theorem exec_frame {i : Instr} {s t : State} (h : exec i s = .next t) :
    t = { s with
          w := t.w, pix := t.pix, sel := t.sel, mode := t.mode, stage := t.stage, k := t.k, busy := t.busy
          done := t.done, fault := t.fault, cause := t.cause, finfo := t.finfo } := by
  rcases exec_cases h with ⟨tr, rfl⟩ | ⟨w, pix, sel, rfl⟩ | ⟨-, ⟨fn, rfl⟩ | rfl⟩ <;> rfl

/-- Only SWAP and RUN change SEL (R26). -/
theorem exec_sel {i : Instr} {s t : State} (h : exec i s = .next t) (hswap : i ≠ .swap) (hrun : i ≠ .run) :
    t.sel = s.sel := by
  have hsweep : ∀ fn, (sweepCommand fn s).sel = s.sel := fun fn => by
    rcases sweepCommand_cases fn s with ⟨tr, -, he⟩ | ⟨-, he⟩ <;> rw [he] <;> rfl
  cases i with
  | nop | filtSharpen | filtSobel | filtMedian => cases h; rfl
  | sample =>
    simp only [exec, execSample] at h
    split at h
    · cases h; rfl
    · split at h <;> cases h
      rfl
  | sweepSharpen | sweepSobel | sweepMedian => cases h; exact hsweep _
  | swap => exact absurd rfl hswap
  | run => exact absurd rfl hrun

/-! ### What the engine does not look at (R34, R57) -/

/-- `s` with the fields that no micro-op reads, WERR, W, PIX and the model's own records, as they are in `h`. -/
def State.withHost (s h : State) : State :=
  { s with w := h.w, pix := h.pix, werr := h.werr, draws := h.draws, agenda := h.agenda, replies := h.replies }

theorem memWrite_withHost (s h : State) (slot : Slot) (o : Nat) (v : Byte) :
    (s.withHost h).memWrite slot o v = (s.memWrite slot o v).map (·.withHost h) := by
  by_cases ho : o < s.bufCap.toNat
  · rw [(State.memWrite_eq_some (s := s)).2 ⟨ho, rfl⟩, (State.memWrite_eq_some (s := s.withHost h)).2 ⟨ho, rfl⟩]
    cases slot <;> rfl
  · have hnone : ∀ u : State, u.bufCap = s.bufCap → u.memWrite slot o v = none := fun u hu =>
      if_neg (by rwa [hu])
    rw [hnone s rfl, hnone (s.withHost h) rfl]
    rfl

theorem perform_withHost (s h : State) (op : MicroOp) :
    perform (s.withHost h) op = (perform s op).map (·.withHost h) := by
  cases op with
  | pixel fn x y =>
    have hread : (s.withHost h).readWindow (s.withHost h).sel x y = s.readWindow s.sel x y := rfl
    simp only [perform, hread]
    cases s.readWindow s.sel x y with
    | none => rfl
    | some n => exact memWrite_withHost ..
  | copy x y =>
    have hread : (s.withHost h).memRead (s.withHost h).sel ((s.withHost h).geo.off x y) =
        s.memRead s.sel (s.geo.off x y) := rfl
    simp only [perform, hread]
    cases s.memRead s.sel (s.geo.off x y) with
    | none => rfl
    | some v => exact memWrite_withHost ..
  | swapOp => rfl

/-- An engine step does the same whatever those fields hold. -/
theorem engineStep_withHost {s t : State} (h : State) (hstep : engineStep s = .next t) :
    ∃ t', engineStep (s.withHost h) = .next t' ∧ t' = t.withHost t' := by
  obtain ⟨op, s', hop, hp, ⟨hlast, rfl⟩ | ⟨hmid, rfl⟩⟩ := engineStep_cases hstep
  all_goals have hp' : perform (s.withHost h) op = some (s'.withHost h) := by rw [perform_withHost, hp]; rfl
  · exact ⟨_, engineStep_last (s := s.withHost h) hop hp' hlast, rfl⟩
  · exact ⟨_, engineStep_mid (s := s.withHost h) hop hp' hmid, rfl⟩

/-- An access to a busy block that does not reset it sets WERR, answers or uses up a draw at most. -/
theorem hostAccess_busy {s t : State} {act : HostAct} (hb : s.busy = true) (hreset : ¬ accessResets act)
    (h : hostAccess s act = .next t) : t = { s with werr := t.werr, draws := t.draws, replies := t.replies } := by
  by_cases hdrop : s.drops act
  · rw [hostAccess_of_drops hdrop h]
  have hl : s.locked = true := s.locked_eq_true_iff.mpr (.inl hb)
  cases act with
  | regRead r =>
    cases h
    obtain ⟨d, v, he⟩ := hostRegRead_cases s r
    rw [he]
  | planeRead slot off =>
    cases h
    obtain ⟨d, we, v, -, he⟩ := hostPlaneRead_cases s slot off
    rw [he]
  | planeWrite slot off v => exact absurd (.inl hl) hdrop
  | regWrite r v =>
    rcases hostRegWrite_by_index h with ⟨rfl, -⟩ | ⟨rfl, rfl⟩ | ⟨hr, -⟩ | ⟨-, rfl⟩
    · exact absurd ⟨by decide, hl⟩ hdrop
    · rw [if_neg fun hv => hreset ⟨rfl, hv⟩]
    · exact absurd ⟨List.mem_cons_of_mem _ hr, hl⟩ hdrop
    · rfl

/-! ### A running command, left alone -/

/-- Before the last micro-op, n engine steps count K by n. -/
theorem steps_busy {n : Nat} {s : State} (h : s.Inv) (hb : s.busy = true) (hmoves : s.engineMoves)
    (hn : n < s.ops.length - s.k) :
    ∃ v, steps n s = .next v ∧ v.Inv ∧ v.busy = true ∧ v.k = s.k + n ∧ v.ops = s.ops ∧ v.agenda = s.agenda ∧
      v.replies = s.replies := by
  induction n generalizing s with
  | zero => exact ⟨s, rfl, h, hb, rfl, rfl, rfl, rfl⟩
  | succ n ih =>
    obtain ⟨t, ht, htb, htk, htops⟩ := h.engineStep_counts hb (by omega)
    have hframe := engineStep_frame ht
    have hta : t.agenda = s.agenda := by rw [hframe]
    have htr : t.replies = s.replies := by rw [hframe]
    have htmoves : t.engineMoves := by rwa [State.engineMoves, hta]
    obtain ⟨v, hv, hinv, hvb, hvk, hvops, hva, hvr⟩ :=
      ih (h.engineStep hb ht) htb htmoves (by rw [htops, htk]; omega)
    exact ⟨v, (steps_succ ((step_eq_engineStep hmoves hb).trans ht) n).trans hv, hinv, hvb,
      by rw [hvk, htk]; omega, hvops.trans htops, hva.trans hta, hvr.trans htr⟩

/-- As many engine steps as micro-ops are left complete the command. -/
theorem steps_to_end {s : State} (h : s.Inv) (hb : s.busy = true) (hmoves : s.engineMoves) :
    ∃ u, steps (s.ops.length - s.k) s = .next u ∧ u.busy = false ∧ u.done = true ∧ u.fault = false ∧
      u.agenda = s.agenda ∧ u.replies = s.replies := by
  have hk := (h.engineBusy hb).k_lt
  obtain ⟨v, hv, hinv, hvb, hvk, hvops, hva, hvr⟩ :=
    steps_busy (n := s.ops.length - s.k - 1) h hb hmoves (by omega)
  obtain ⟨u, hu, hub, hud, huf⟩ := hinv.engineStep_completes hvb (by rw [hvops, hvk]; omega)
  have hvmoves : v.engineMoves := by rwa [State.engineMoves, hva]
  have hframe := engineStep_frame hu
  refine ⟨u, ?_, hub, hud, huf, by rw [hframe]; exact hva, by rw [hframe]; exact hvr⟩
  have hsplit : s.ops.length - s.k = s.ops.length - s.k - 1 + 1 := by omega
  rw [hsplit, steps_add _ _ _ _ hv, steps_succ ((step_eq_engineStep hvmoves hvb).trans hu)]
  rfl

/-! ### A running command among the host's accesses (R204) -/

/-- A turn that a running command survives: the engine's, or a host access that does not reset the block. -/
def Harmless (t : Turn) : Prop := t = .engine ∨ ∃ act, t = .host act ∧ ¬ accessResets act

theorem not_accessResets_iff (act : HostAct) :
    ¬ accessResets act ↔ ∀ v : Word, act = .regWrite 3 v → v.getLsbD 0 = false := by
  cases act <;> simp [accessResets]

/-- A harmless host access to a busy block changes nothing but what the engine does not look at. -/
theorem step_harmless_host {s : State} {act : HostAct} {rest : List Turn} (ha : s.agenda = .host act :: rest)
    (hb : s.busy = true) (hreset : ¬ accessResets act) :
    ∃ t, step s = .next t ∧
      t = { s with werr := t.werr, draws := t.draws, agenda := rest, replies := t.replies } := by
  obtain ⟨t, ht⟩ := exists_hostAccess { s with agenda := rest } act
  exact ⟨t, (step_of_agenda_host ha).trans ht, hostAccess_busy (s := { s with agenda := rest }) hb hreset ht⟩

/-- While the engine turns among harmless turns do not reach the end of OPS, K counts them, and the engine goes the way
that it goes in the state `z` with nothing pending. -/
theorem steps_harmless {turns rest : List Turn} {s z : State} (h : s.Inv) (hb : s.busy = true)
    (ha : s.agenda = turns ++ rest) (hz : z = s.withHost z) (hza : z.agenda = [])
    (hturns : ∀ t ∈ turns, Harmless t) (hn : turns.count .engine < s.ops.length - s.k) :
    ∃ v w, steps turns.length s = .next v ∧ steps (turns.count .engine) z = .next w ∧ v.Inv ∧ v.busy = true ∧
      v.agenda = rest ∧ v.k = s.k + turns.count .engine ∧ v.ops = s.ops ∧ w = v.withHost w ∧ w.agenda = [] := by
  induction turns generalizing s z with
  | nil => exact ⟨s, z, rfl, rfl, h, hb, ha, rfl, rfl, hz, hza⟩
  | cons turn turns ih =>
    obtain ⟨hturn, hothers⟩ := List.forall_mem_cons.mp hturns
    rcases hturn with rfl | ⟨act, rfl, hreset⟩
    case inl =>
      rw [List.count_cons_self] at hn ⊢
      obtain ⟨hstep, -⟩ := step_of_engine_turn hb (.inr (.inl ⟨_, ha, rfl⟩))
      have h' : ({ s with agenda := turns ++ rest } : State).Inv := { h with }
      obtain ⟨t, ht, htb, htk, htops⟩ := h'.engineStep_counts hb (show s.k + 1 < s.ops.length by omega)
      have hta : t.agenda = turns ++ rest := by rw [engineStep_frame ht]
      obtain ⟨z', hz', hzt⟩ := engineStep_withHost z ht
      rw [show State.withHost { s with agenda := turns ++ rest } z = z from hz.symm] at hz'
      have hza' : z'.agenda = [] := by rw [engineStep_frame hz']; exact hza
      have hzb : z.busy = true := by rw [hz]; exact hb
      have htops' : t.ops = s.ops := htops
      have htk' : t.k = s.k + 1 := htk
      obtain ⟨v, w, hv, hw, hinv, hvb, hva, hvk, hvops, hvw, hwa⟩ :=
        ih (h'.engineStep hb ht) htb hta hzt hza' hothers (by rw [htops', htk']; omega)
      exact ⟨v, w, (steps_succ (hstep.trans ht) _).trans hv,
        (steps_succ ((step_eq_engineStep (.inl hza) hzb).trans hz') _).trans hw, hinv, hvb, hva,
        by rw [hvk, htk']; omega, hvops.trans htops', hvw, hwa⟩
    case inr =>
      rw [List.count_cons_of_ne Turn.noConfusion] at hn ⊢
      obtain ⟨t, ht, hframe⟩ := step_harmless_host ha hb hreset
      have htops : t.ops = s.ops := by rw [hframe]; rfl
      have htk : t.k = s.k := by rw [hframe]
      have hta : t.agenda = turns ++ rest := by rw [hframe]; rfl
      have hzt : z = t.withHost z := by rw [hframe]; exact hz
      obtain ⟨v, w, hv, hw, hinv, hvb, hva, hvk, hvops, hvw, hwa⟩ :=
        ih (h.step ht) (by rw [hframe]; exact hb) hta hzt hza hothers (by rw [htops, htk]; exact hn)
      exact ⟨v, w, (steps_succ ht _).trans hv, hw, hinv, hvb, hva, by rw [hvk, htk], hvops.trans htops, hvw, hwa⟩

/-- The engine turn that reaches the end of OPS completes the command as it does with nothing pending. -/
theorem steps_harmless_to_end {turns rest : List Turn} {s : State} (h : s.Inv) (hb : s.busy = true)
    (ha : s.agenda = turns ++ rest) (hturns : ∀ t ∈ turns, Harmless t)
    (hn : turns.count .engine = s.ops.length - s.k) (hlast : turns.getLast? = some .engine) :
    ∃ u w, steps turns.length s = .next u ∧ steps (s.ops.length - s.k) { s with agenda := [] } = .next w ∧
      u.agenda = rest ∧ u.busy = false ∧ u.done = true ∧ u.fault = false ∧ w = u.withHost w := by
  obtain ⟨init, rfl⟩ := List.getLast?_eq_some_iff.mp hlast
  rw [List.count_append, List.count_singleton_self] at hn
  rw [List.append_assoc] at ha
  obtain ⟨v, z, hv, hz, hinv, hvb, hva, hvk, hvops, hvz, hza⟩ :=
    steps_harmless (z := { s with agenda := [] }) h hb ha rfl rfl
      (fun t ht => hturns t (List.mem_append_left _ ht)) (by omega)
  obtain ⟨hstep, -⟩ := step_of_engine_turn hvb (.inr (.inl ⟨_, hva, rfl⟩))
  have hinv' : ({ v with agenda := rest } : State).Inv := { hinv with }
  obtain ⟨u, hu, hub, hud, huf⟩ :=
    hinv'.engineStep_completes hvb (show v.k + 1 = v.ops.length by rw [hvops, hvk]; omega)
  obtain ⟨w, hw, huw⟩ := engineStep_withHost z hu
  rw [show State.withHost { v with agenda := rest } z = z from hvz.symm] at hw
  have hzb : z.busy = true := by rw [hvz]; exact hvb
  refine ⟨u, w, ?_, ?_, by rw [engineStep_frame hu], hub, hud, huf, huw⟩
  · rw [List.length_append, steps_add _ _ _ _ hv]
    exact steps_succ (hstep.trans hu) 0
  · rw [← hn, steps_add _ _ _ _ hz]
    exact steps_succ ((step_eq_engineStep (.inl hza) hzb).trans hw) 0

/-- A wait ends: at once on an idle block, else when the running command has completed. -/
theorem exists_steps_wait {s : State} {rest : List Turn} (h : s.Inv) (ha : s.agenda = .wait :: rest) :
    ∃ (n : Nat) (u : State), steps n s = .next { u with agenda := rest, replies := .reg u.status :: s.replies } ∧
      u.busy = false := by
  cases hb : s.busy with
  | false => exact ⟨1, s, steps_succ (step_of_agenda_wait_idle ha hb) 0, hb⟩
  | true =>
    obtain ⟨u, hu, hub, -, -, hua, hur⟩ := steps_to_end h hb (.inr ⟨rest, ha⟩)
    refine ⟨s.ops.length - s.k + 1, u, ?_, hub⟩
    rw [← hur, steps_add _ 1 _ _ hu]
    exact steps_succ (step_of_agenda_wait_idle (hua.trans ha) hub) 0

end Sys2Proof.Machine

namespace Sys2Proof
open Machine

/-! ### The obligations -/

/-- Settles O59: left alone, the engine counts K to the end of OPS; the host's accesses change nothing that it looks at;
and a wait sees the end. -/
theorem runningCommandEnds : Obligations.RunningCommandEnds := by
  have hharmless : ∀ turns : List Turn,
      (∀ t ∈ turns, t = .engine ∨ ∃ act, t = .host act ∧ ∀ v : Word, act = .regWrite 3 v → v.getLsbD 0 = false) →
      ∀ t ∈ turns, Harmless t := fun turns hturns t ht =>
    (hturns t ht).imp_right fun ⟨act, he, hact⟩ => ⟨act, he, (not_accessResets_iff act).mpr hact⟩
  refine ⟨fun s h hb ha => ⟨fun n hn => ?during, ?ends⟩, fun s turns rest h hb ha hturns => ⟨fun hn => ?mixed,
    fun hn hlast => ?mixedEnds⟩, fun s rest h ha => ?waits⟩
  case during =>
    obtain ⟨v, hv, -, hvb, -⟩ := steps_busy h hb (.inl ha) hn
    exact ⟨v, hv, hvb⟩
  case ends =>
    obtain ⟨u, hu, hub, hud, huf, -⟩ := steps_to_end h hb (.inl ha)
    exact ⟨u, hu, hub, hud, huf⟩
  case mixed =>
    obtain ⟨v, -, hv, -, hinv, hvb, hva, hvk, -⟩ :=
      steps_harmless (z := { s with agenda := [] }) h hb ha rfl rfl (hharmless turns hturns) hn
    exact ⟨v, hv, hva, hvb, (hinv.engineBusy hvb).notDone, hvk⟩
  case mixedEnds =>
    obtain ⟨u, w, hu, hw, hua, hub, hud, huf, huw⟩ := steps_harmless_to_end h hb ha (hharmless turns hturns) hn hlast
    refine ⟨u, w, hu, hw, hua, hub, hud, huf, ?_, ?_, ?_⟩ <;> rw [huw] <;> rfl
  case waits =>
    obtain ⟨n, u, hn, hub⟩ := exists_steps_wait h ha
    exact ⟨n, _, hn, rfl, hub, rfl, ((State.status_bits _).1).trans hub⟩

/-- Settles O25: the three turns that move the engine are one engine step, which finds the micro-op that K names. -/
theorem engineStepPerformsNextMicroOp : Obligations.EngineStepPerformsNextMicroOp := by
  refine ⟨fun s fn => State.ops_of_sweep, fun s => State.ops_of_run, fun s u hturn hb => ?idle,
    fun s rest => step_of_agenda_wait_idle, fun s u hturn hb => ?busy⟩
  case idle =>
    rcases hturn with ⟨ha, rfl⟩ | ⟨rest, ha, rfl⟩
    · exact step_idle ha hb
    · rw [step_of_agenda_engine ha, engineTurn_idle (s := { s with agenda := rest }) hb]
  case busy =>
    obtain ⟨hstep, hu⟩ := step_of_engine_turn hb hturn
    have hops : u.ops = s.ops := by rw [hu]; rfl
    have hk : u.k = s.k := by rw [hu]
    have hdraws : u.draws = s.draws := by rw [hu]
    refine ⟨fun h => ?_, fun op u' hop hp => ?_⟩
    · have hbusy := h.engineBusy hb
      obtain ⟨t, ht⟩ := h.exists_step
      refine ⟨hbusy.four_le_length_ops, t, ht, ?_⟩
      rw [(engineStep_flags (hstep.symm.trans ht)).1, hu]
      exact hbusy.noFault
    · rw [← hops, ← hk] at hop
      rw [hstep, ← hk, ← hops, ← hdraws, ← completeCommand_of_perform hp]
      exact ⟨fun hmid => engineStep_mid hop hp hmid.ne, engineStep_last hop hp⟩

/-- Settles O53: the frames of an acceptance and of an engine step, and who writes SEL. -/
theorem commandsKeepGeometry : Obligations.CommandsKeepGeometry := by
  refine ⟨fun i s t h => ?_, fun s t h => ?_⟩
  · have hsel : t.sel ≠ s.sel → i = .swap ∨ i = .run := fun hne => by
      by_contra hother
      obtain ⟨hswap, hrun⟩ := not_or.mp hother
      exact hne (exec_sel h hswap hrun)
    have hframe := exec_frame h
    refine ⟨?_, ?_, ?_, ?_, ?_, ?_, ?_, ?_, ?_, ?_, ?_, hsel⟩ <;> rw [hframe]
  · have hframe := engineStep_frame h
    refine ⟨?_, ?_, ?_, ?_, ?_, ?_, ?_, ?_, ?_, ?_, engineStep_keeps_input h⟩ <;> rw [hframe]

/-- Settles O54: the access leaves everything alone that a micro-op looks at. -/
theorem runningCommandIsIsolated : Obligations.RunningCommandIsIsolated := by
  intro s t act rest hb ha hreset hstep
  rw [State.nextIsReset_iff, not_or] at hreset
  obtain ⟨t', ht', hframe⟩ := step_harmless_host ha hb fun hact => hreset.2 ⟨act, by rw [ha]; rfl, hact⟩
  cases hstep.symm.trans ht'
  refine ⟨hframe, fun u v hu hv => ?_⟩
  obtain ⟨v', hv', huv⟩ := engineStep_withHost t hu
  rw [show s.withHost t = t by rw [hframe]; rfl] at hv'
  cases hv.symm.trans hv'
  refine ⟨?_, ?_, ?_, ?_, ?_, ?_, ?_, ?_⟩ <;> rw [huv] <;> rfl

end Sys2Proof
end

section
/-!
PROOFS. RUN as the host sees it (`43_pipeline.md` section 2): what STATUS reads while it runs (R28, R152), and that the
script of three SWEEPs, waits and SWAPs ends in the same buffers and flags (R66, R88, R89).
-/

namespace Sys2Proof.Machine

/-! ### STATUS during RUN -/

theorem engineTurn_agenda {s t : State} (h : engineTurn s = .next t) : t.agenda = s.agenda := by
  cases hb : s.busy with
  | false => rw [engineTurn_idle hb] at h; cases h; rfl
  | true => rw [engineTurn_busy hb] at h; rw [engineStep_frame h]

/-- With nothing pending, no number of steps touches FAULT or WERR. -/
theorem steps_flags {n : Nat} {s t : State} (ha : s.agenda = []) (h : steps n s = .next t) :
    t.fault = s.fault ∧ t.werr = s.werr := by
  induction n generalizing s with
  | zero => cases h; exact ⟨rfl, rfl⟩
  | succ n ih =>
    simp only [steps, step_of_agenda_nil ha] at h
    split at h
    case h_1 s' hs' =>
      obtain ⟨hfault, hwerr⟩ := ih ((engineTurn_agenda hs').trans ha) h
      obtain ⟨hfault', hwerr'⟩ := engineTurn_flags hs'
      exact ⟨hfault.trans hfault', hwerr.trans hwerr'⟩
    all_goals cases h

/-- STATUS of an unfaulted RUN in progress, by its stage. -/
theorem State.status_of_running {v : State} {n : Nat} (hb : v.busy = true) (hd : v.done = false)
    (hf : v.fault = false) (hw : v.werr = false) (hsel : v.sel = stageSlot v.stage) (hstage : v.stage.toNat = n) :
    v.status = (BitVec.ofNat 2 n ++ slotBit (stageSlot (BitVec.ofNat 2 n)) ++ 0b0001#4).setWidth 32 := by
  have hst : v.stage = BitVec.ofNat 2 n := by rw [← hstage, BitVec.ofNat_toNat, BitVec.setWidth_eq]
  simp only [State.status, hb, hd, hf, hw, hsel, hst]
  generalize BitVec.ofNat 2 n = st
  revert st
  decide

/-! ### Runs of any number of steps -/

/-- Some number of steps takes `s` to `t`. -/
def Leads (s t : State) : Prop := ∃ n, steps n s = .next t

theorem Leads.of_step {s t : State} (h : step s = .next t) : Leads s t := ⟨1, steps_succ h 0⟩

theorem Leads.trans {s t u : State} (hst : Leads s t) (htu : Leads t u) : Leads s u := by
  obtain ⟨m, hm⟩ := hst
  obtain ⟨n, hn⟩ := htu
  exact ⟨m + n, (steps_add m n s t hm).trans hn⟩

/-! ### A command of a script -/

theorem leads_command {s t : State} {i : Instr} {rest : List Turn} (ha : s.agenda = command i :: rest)
    (hb : s.busy = false) (hf : s.fault = false) (h : exec i { s with agenda := rest } = .next t) : Leads s t :=
  .of_step ((step_of_agenda_issue ha hb hf ((decode_eq_instr_iff _ i).mpr rfl)).trans h)

/-- Idle, unfaulted, with a geometry that passes the checks of SWEEP and RUN (R186). -/
structure State.Ready (s : State) : Prop where
  busy : s.busy = false
  fault : s.fault = false
  valid : s.geo.valid
  fits : s.geo.fits s.bufCap.toNat

/-- A SWEEP and the wait for its end leave the sweep of the input slot in the output slot. -/
theorem leads_sweep {s : State} {i : Instr} {fn : Filt} {c : Word} {rest : List Turn} (hi : (i, fn, c) ∈ sweepCommands)
    (h : s.Ready) (ha : s.agenda = command i :: .wait :: rest) :
    ∃ t, Leads s t ∧ t.Ready ∧ t.agenda = rest ∧ t.geo = s.geo ∧ t.sel = s.sel ∧ t.byte s.sel = s.byte s.sel ∧
      t.byte (otherSlot s.sel) = sweep fn s.geo (s.byte s.sel) (s.byte (otherSlot s.sel)) := by
  obtain ⟨hb, hf, hv, hfits⟩ := h
  have hexec : exec i { s with agenda := .wait :: rest } = _ :=
    ((exec_of_mem_sweepCommands hi).2 _).trans (congrArg Host.Outcome.next (sweepCommand_of_passed fn hv hfits))
  obtain ⟨m, hsweep, hread, -⟩ :=
    steps_sweep (s := startSequence (.sweep fn) (State.accept { s with agenda := .wait :: rest })) (fn := fn) hv hfits
      rfl rfl rfl (.inr ⟨rest, rfl⟩)
  generalize hu : completeCommand _ = u at hsweep
  have hua : u.agenda = .wait :: rest := by rw [← hu]; simp
  have hub : u.busy = false := by rw [← hu]; rfl
  have hgeo : u.geo = s.geo := by rw [← hu, completeCommand_geo, setBuf_geo]; rfl
  have hcap : u.bufCap = s.bufCap := by rw [← hu]; simp
  have hin : u.byte s.sel = s.byte s.sel := by
    rw [← hu, completeCommand_byte]
    exact State.byte_setBuf_other ..
  have hout : u.byte (otherSlot s.sel) = sweep fn s.geo (s.byte s.sel) (s.byte (otherSlot s.sel)) := by
    funext o
    rw [← hu, completeCommand_byte]
    exact (State.byte_setBuf_self ..).trans (hread o)
  refine ⟨_, ((leads_command ha hb hf hexec).trans ⟨_, hsweep⟩).trans (.of_step (step_of_agenda_wait_idle hua hub)),
    ⟨hub, ?_, ?_, ?_⟩, rfl, hgeo, ?_, hin, hout⟩
  · show u.fault = false
    rw [← hu]
    simpa using hf
  · show u.geo.valid
    rwa [hgeo]
  · show u.geo.fits u.bufCap.toNat
    rwa [hgeo, hcap]
  · show u.sel = s.sel
    rw [← hu]
    simp

/-- SWAP exchanges the slots (R151). -/
theorem leads_swap {s : State} {rest : List Turn} (h : s.Ready) (ha : s.agenda = command .swap :: rest) :
    Leads s { s with agenda := rest, sel := otherSlot s.sel, done := true } :=
  leads_command ha h.busy h.fault rfl

/-- A SWEEP, a wait and a SWAP are one stage of the pipeline: the output slot holds the sweep of the input slot and is
the next input slot. -/
theorem leads_stage {s : State} {i : Instr} {fn : Filt} {c : Word} {rest : List Turn} (hi : (i, fn, c) ∈ sweepCommands)
    (h : s.Ready) (ha : s.agenda = command i :: .wait :: command .swap :: rest) :
    ∃ t, Leads s t ∧ t.Ready ∧ t.agenda = rest ∧ t.done = true ∧ t.geo = s.geo ∧ t.sel = otherSlot s.sel ∧
      t.byte s.sel = s.byte s.sel ∧
      t.byte (otherSlot s.sel) = sweep fn s.geo (s.byte s.sel) (s.byte (otherSlot s.sel)) := by
  obtain ⟨t, ht, hready, hta, hgeo, hsel, hin, hout⟩ := leads_sweep hi h ha
  exact ⟨_, ht.trans (leads_swap hready hta), { hready with }, rfl, rfl, hgeo, congrArg otherSlot hsel, hin, hout⟩

/-- The three sweeps of the pipeline, each followed by a wait and a SWAP. -/
def handIssuedStages : List ScriptLine :=
  [.cmd .sweepSharpen, .wait, .cmd .swap, .cmd .sweepSobel, .wait, .cmd .swap, .cmd .sweepMedian, .wait, .cmd .swap]

/-- Three stages by hand from SEL = A leave the pipeline in the buffers and SEL = B (R150). -/
theorem leads_stages {s : State} (h : s.Ready) (hsel : s.sel = .a)
    (ha : s.agenda = expandScript handIssuedStages) :
    ∃ t, Leads s t ∧ t.Ready ∧ t.agenda = [] ∧ t.done = true ∧ t.sel = .b ∧
      t.byte .a = (pipeline s.geo (s.byte .a) (s.byte .b)).1 ∧
      t.byte .b = (pipeline s.geo (s.byte .a) (s.byte .b)).2 := by
  obtain ⟨t₁, h₁, hr₁, ha₁, -, hgeo₁, hsel₁, hin₁, hout₁⟩ :=
    leads_stage (i := .sweepSharpen) (fn := .sharpen) (.head _) h ha
  obtain ⟨t₂, h₂, hr₂, ha₂, -, hgeo₂, hsel₂, hin₂, hout₂⟩ :=
    leads_stage (i := .sweepSobel) (fn := .sobel) (.tail _ (.head _)) hr₁ ha₁
  obtain ⟨t₃, h₃, hr₃, ha₃, hdone₃, -, hsel₃, hin₃, hout₃⟩ :=
    leads_stage (i := .sweepMedian) (fn := .median) (.tail _ (.tail _ (.head _))) hr₂ ha₂
  simp only [hgeo₁, hgeo₂, hsel, hsel₁, hsel₂, otherSlot] at *
  refine ⟨t₃, (h₁.trans h₂).trans h₃, hr₃, ha₃, hdone₃, hsel₃, ?_, ?_⟩
  · rw [hin₃, hout₂, hout₁, hin₁, pipeline]
  · rw [hout₃, hout₂, hin₂, hout₁, hin₁, pipeline]

/-- RUN and the wait for its end do the same (R152). -/
theorem leads_run {s : State} {rest : List Turn} (h : s.Ready) (ha : s.agenda = command .run :: .wait :: rest) :
    ∃ t, Leads s t ∧ t.agenda = rest ∧ t.busy = false ∧ t.fault = false ∧ t.done = true ∧ t.sel = .b ∧
      t.byte .a = (pipeline s.geo (s.byte .a) (s.byte .b)).1 ∧
      t.byte .b = (pipeline s.geo (s.byte .a) (s.byte .b)).2 := by
  obtain ⟨hb, hf, hv, hfits⟩ := h
  obtain ⟨u, hend, hframe, hbyteA, hbyteB, -⟩ :=
    steps_run (s := startSequence .run { State.accept { s with agenda := .wait :: rest } with sel := .a }) hv hfits
      rfl rfl rfl rfl rfl (.inr ⟨rest, rfl⟩)
  have hua : (completeCommand u).agenda = .wait :: rest := by rw [completeCommand_agenda, hframe]; rfl
  have hfault : u.fault = false := by rw [hframe]; exact hf
  have hsel : u.sel = .b := by rw [hframe]
  exact ⟨_, ((leads_command ha hb hf (exec_run_of_passed (s := { s with agenda := .wait :: rest }) hv hfits)).trans
      ⟨_, hend⟩).trans (.of_step (step_of_agenda_wait_idle hua rfl)), rfl, rfl, hfault, rfl, hsel, hbyteA, hbyteB⟩

end Sys2Proof.Machine

namespace Sys2Proof
open Machine

/-! ### The obligations -/

/-- Settles O35: each script leaves the pipeline in the buffers, the first stage by stage. -/
theorem runEqualsHandIssuedSequence : Obligations.RunEqualsHandIssuedSequence := by
  intro s hb hf hsel hv hfits _
  have hready : ∀ turns, ({ s with agenda := turns } : State).Ready := fun _ => ⟨hb, hf, hv, hfits⟩
  obtain ⟨u, ⟨m, hm⟩, hur, hua, hud, husel, huA, huB⟩ := leads_stages (hready (expandScript handIssuedStages)) hsel rfl
  obtain ⟨v, ⟨n, hn⟩, hva, hvb, hvf, hvd, hvsel, hvA, hvB⟩ := leads_run (rest := []) (hready _) rfl
  refine ⟨m, n, u, v, hm, hn, hua, hva, fun slot o => ?_, husel.trans hvsel.symm, hur.busy, hvb, hud, hvd, hur.fault,
    hvf⟩
  cases slot with
  | a => exact congrFun (huA.trans hvA.symm) o
  | b => exact congrFun (huB.trans hvB.symm) o

/-- Settles O34: STAGE and SEL at each step are those of RUN, FAULT and WERR stay 0, and the last step sets DONE. -/
theorem runStatusByStage : Obligations.RunStatusByStage := by
  intro s t hv hf ha hfault hwerr hexec n v hn
  obtain ⟨-, -, -, hruns⟩ := runComputesPipeline s
  obtain ⟨t', u, hexec', hduring, hend, -, -, hu⟩ := hruns hv hf ha
  cases hexec.symm.trans hexec'
  have hstart := hexec.symm.trans (exec_run_of_passed hv hf)
  have hflags : v.fault = false ∧ v.werr = false := by
    cases hstart
    obtain ⟨hvf, hvw⟩ := steps_flags (s := startSequence .run { s.accept with sel := .a }) ha hn
    exact ⟨hvf.trans hfault, hvw.trans hwerr⟩
  have hlength := length_runOps .sharpen s.geo.width s.geo.height
  have hstage : ∀ q, q * ((sweepOps .sharpen s.geo.width s.geo.height).length + 1) ≤ n →
      n < (q + 1) * ((sweepOps .sharpen s.geo.width s.geo.height).length + 1) → q < 3 →
      v.status = (BitVec.ofNat 2 q ++ slotBit (stageSlot (BitVec.ofNat 2 q)) ++ 0b0001#4).setWidth 32 := by
    intro q hlo hhi hq
    have hlt : n < (runOps s.geo.width s.geo.height).length := by
      rw [hlength]
      nlinarith
    obtain ⟨v', hn', hvb, hvd, hvstage, hvsel⟩ := hduring n hlt
    cases hn.symm.trans hn'
    exact State.status_of_running hvb hvd hflags.1 hflags.2 hvsel (hvstage.trans (Nat.div_eq_of_lt_le hlo hhi))
  refine ⟨fun hlt => ?_, fun hle hlt => ?_, fun hle hlt => ?_, fun hlast => ?_⟩
  · exact hstage 0 (by omega) (by omega) (by decide)
  · exact hstage 1 (by omega) (by omega) (by decide)
  · exact hstage 2 (by omega) (by omega) (by decide)
  · have hnlast : n = (runOps s.geo.width s.geo.height).length := by omega
    rw [hnlast, hend] at hn
    cases hn
    rw [hu]
    simp only [State.status, hfault, hwerr]
    rfl

end Sys2Proof
end
